-- ==== Sys2Proof/Word.lean ====
section
/-! DEFINITION. The word types: bytes, RGB triples, and the operation words of the three formats the opcode table
names (`MODE8`, `SETMODE_ARG8`, `HOSTOP`). -/

namespace Sys2Proof

/-- A byte (R8): 8 bits, a natural 0 to 255. -/
abbrev Byte := BitVec 8

/-- An RGB triple, each component a byte (R11). -/
structure RGB where
  /-- The red component. -/
  r : Byte
  /-- The green component. -/
  g : Byte
  /-- The blue component. -/
  b : Byte
deriving DecidableEq, Repr, Inhabited

/-- The RGB triple with every component 0, black (R40, index 0). -/
abbrev RGB.black : RGB := ⟨0, 0, 0⟩

/-- Component `c` of a triple in the byte order of `RGB24` (R100): 0 is R, 1 is G, 2 is B. -/
def RGB.component (p : RGB) : Nat → Byte
  | 0 => p.r
  | 1 => p.g
  | _ => p.b

/-- An operation word, in one of the three formats of the opcode table (R90, R92, R93, R102).
How a host transaction is laid out as a word is log entry 1 (DESIGN CHOICE: the spec has no wire encoding, R102). -/
inductive OpWord where
  /-- `HOSTOP`: the 3-bit tag and, beside it, its operand fields in the order of R102's table. -/
  | hostop (tag : BitVec 3) (operands : List Nat)
  /-- `SETMODE_ARG8`: the set-mode command given by its numeric argument (R93). -/
  | setmodeArg8 (n : Byte)
  /-- `MODE8`: the latched mode that selects the routine of a render request (R92). -/
  | mode8 (m : Byte)
deriving DecidableEq, Repr

end Sys2Proof
end

