-- ==== Sys2Proof/Config.lean ====
section
/-! DEFINITION. The opaque constants for what the spec leaves open. The named constants of R6 and R262 are in
Sys2Proof/Machine/Params.lean, under this same namespace. -/

namespace Sys2Proof.Config

open Sys2Proof

/-- The glyph table's byte `i` (R45; OPEN, D9, log 13). -/
opaque fontByte : Nat → Byte

/-- `PAL_M5_COLOR[v]`, v = 1, 2, 3 (R43; OPEN, D8, log 12). -/
opaque m5ColorEntry : Nat → RGB

/-- What the levels of `PAL_M5_GRAY` are made of (R44; OPEN, D8, log 12): any three naturals. -/
opaque m5GrayRaw : Nat → Nat

/-- `ASPECT` (R6, R34, U5; log 11): the value a frame writes to `aspectRatio`; no rule reads it. -/
opaque aspect : Nat

/-- The byte at offset `k` of the image with token `t` that nothing has written yet (R252, U8; log 8). -/
opaque imageByte : (t k : Nat) → Byte

/-- The width of the image with token `t` before the first request (R252, U8; log 9). -/
opaque imageWidth : Nat → Nat
/-- The height of the image with token `t` before the first request (R252, U8; log 9). -/
opaque imageHeight : Nat → Nat
/-- The aspect ratio of the image with token `t` before the first request (R252, U8; log 9). -/
opaque imageAspect : Nat → Nat

/-- Which moment of a render request the read of VRAM offset `o` for image position `(x, y)` sees (R73(b) to (d); log 5).
`n` is the counter `State.draws`. -/
opaque tornDraw : (n x y o : Nat) → Nat

end Sys2Proof.Config
end

