-- ==== Sys2Proof/Machine/Params.lean ====
section
/-! DEFINITION. The named constants of R6 and R262, one place for each literal; the luma function, the palette parameters'
values at reset, and the byte arithmetic every routine uses. -/

namespace Sys2Proof.Config

open Sys2Proof

/-- `MEM_SIZE` (R6, D1): bytes in `memory`. -/
abbrev memSize : Nat := 1048576
/-- `PORT_COUNT` (R6, D2): entries in `ports`. -/
abbrev portCount : Nat := 65536
/-- `VRAM_BASE` (R6, D3). -/
abbrev vramBase : Nat := 0xB8000
/-- `BANK_SIZE` (R6): bytes in a bank of video RAM. -/
abbrev bankSize : Nat := 8192
/-- The banks of video RAM (R6, R135): even and odd scanlines. -/
abbrev banks : Nat := 2
/-- `VRAM_SIZE` (R6, D4): 16,384, two banks. -/
abbrev vramSize : Nat := banks * bankSize
/-- `ROW_BYTES` (R6, D5): bytes of a graphics scanline within a bank. -/
abbrev rowBytes : Nat := 80
/-- `MC_PORT` (R6, D3): the Mode Control port. -/
abbrev mcPort : Nat := 0x3D8
/-- `CS_PORT` (R6, D3): the Color Select port. -/
abbrev csPort : Nat := 0x3D9
/-- `BDA_BASE` (R6): the BIOS data area window; no rule of the renderer reads it (R28). -/
abbrev bdaBase : Nat := 0x400
/-- `BDA_SIZE` (R6). -/
abbrev bdaSize : Nat := 0x100
/-- `BORDER` (R6): pixels of border on each side. -/
abbrev border : Nat := 16
/-- The width of a 320-column active area (R131, R150, R160). -/
abbrev width320 : Nat := 320
/-- The width of a 640-column active area (R131, R170). -/
abbrev width640 : Nat := 640
/-- The height of every active area (R131). -/
abbrev activeRows : Nat := 200
/-- Bytes of an output pixel, format `RGB24` (R34, R100). -/
abbrev pixelBytes : Nat := 3
/-- `IMG_CAP` (R6, D6): the capacity in bytes an image needs, 672 × 232 × 3 = 467,712. -/
abbrev imgCap : Nat := (width640 + 2 * border) * (activeRows + 2 * border) * pixelBytes

/-- `MODE_T40` (R6, D11). -/
abbrev modeT40 : Byte := 0
/-- `MODE_T80` (R6, D11). -/
abbrev modeT80 : Byte := 1
/-- `MODE_G320` (R6). -/
abbrev modeG320 : Byte := 4
/-- `MODE_G320M5` (R6). -/
abbrev modeG320M5 : Byte := 5
/-- `MODE_G640` (R6). -/
abbrev modeG640 : Byte := 6

/-- The mode values that have a routine (R25), which are also the defined set-mode arguments (R93). -/
def supportedMode (m : Byte) : Bool :=
  m == modeT40 || m == modeT80 || m == modeG320 || m == modeG320M5 || m == modeG640

/-- The set-mode arguments for which the command writes `MC_GRAY_DEFAULT` (R206). -/
abbrev setsMcGray (n : Byte) : Prop := n = 0 ∨ n = 5

/-! ### Bits of the control bytes and of `KEYLATCH` -/

/-- `MC.BW` (R23). -/
abbrev mcBwBit : Nat := 2
/-- `MC.BLINK_EN` (R23). -/
abbrev mcBlinkBit : Nat := 5
/-- The highest bit of `CS.COLOR` (R24). -/
abbrev csColorHi : Nat := 3
/-- The lowest bit of `CS.COLOR` (R24). -/
abbrev csColorLo : Nat := 0
/-- `CS.INTEN` (R24). -/
abbrev csIntenBit : Nat := 4
/-- `CS.PALSEL` (R24). -/
abbrev csPalselBit : Nat := 5
/-- The lowest bit of the scan code in `KEYLATCH` (R29). -/
abbrev keyScanLo : Nat := 8
/-- The lowest bit of the ASCII code in `KEYLATCH` (R29). -/
abbrev keyAsciiLo : Nat := 0

/-! ### Graphics bytes -/

/-- Pixels in a byte of format `PIX2` (R94). -/
abbrev pix2PerByte : Nat := 4
/-- Bits of a pixel in format `PIX2` (R94). -/
abbrev pix2Bits : Nat := 2
/-- Pixels in a byte of format `PIX1`, one bit each (R95). -/
abbrev pix1PerByte : Nat := 8
/-- The foreground set of `G320` with `CS.PALSEL` clear: the colour indices of pixel values 1 to 3 (R24, R151). -/
abbrev foreground0 : List Nat := [2, 4, 6]
/-- The foreground set of `G320` with `CS.PALSEL` set (R24, R151). -/
abbrev foreground1 : List Nat := [3, 5, 7]
/-- What `CS.INTEN` adds to a foreground index of `G320` (R24, R151). -/
abbrev intensityOffset : Nat := 8
/-- The palette index of a clear bit in `G640` (R171). -/
abbrev paperIndex : Nat := 0

/-! ### Text cells -/

/-- Columns of `T40` (R180). -/
abbrev columnsT40 : Nat := 40
/-- Columns of `T80` (R180). -/
abbrev columnsT80 : Nat := 80
/-- Pixels of a cell from left to right (R181). -/
abbrev cellWidth : Nat := 8
/-- Pixels of a cell from top to bottom (R181). -/
abbrev cellHeight : Nat := 8
/-- Bytes of a cell in video RAM, format `CELL16` (R96). -/
abbrev cellBytes : Nat := 2
/-- Where the attribute stands in a cell; the code stands at 0 (R96). -/
abbrev attrOffset : Nat := 1
/-- Bytes of a glyph, one for each of its rows (R45, R182). -/
abbrev glyphBytes : Nat := 8
/-- Bytes of the glyph table: 256 glyphs (R45). -/
abbrev fontSize : Nat := 256 * glyphBytes
/-- The highest bit of an attribute's foreground (R98, R99). -/
abbrev attrFgHi : Nat := 3
/-- The lowest bit of an attribute's foreground (R98, R99). -/
abbrev attrFgLo : Nat := 0
/-- The highest bit of an attribute's background with blink enabled (R98). -/
abbrev attrBgHiBlink : Nat := 6
/-- The highest bit of an attribute's background with blink disabled (R99). -/
abbrev attrBgHiNoBlink : Nat := 7
/-- The lowest bit of an attribute's background (R98, R99). -/
abbrev attrBgLo : Nat := 4
/-- The blink flag of an attribute (R98). -/
abbrev attrFlagBit : Nat := 7

/-! ### Colours -/

/-- Entries of `PAL16` and `GRAY16` (R40, R41). -/
abbrev paletteSize : Nat := 16
/-- The luma coefficient of red (R13). -/
abbrev lumaRed : Nat := 299
/-- The luma coefficient of green (R13). -/
abbrev lumaGreen : Nat := 587
/-- The luma coefficient of blue (R13). -/
abbrev lumaBlue : Nat := 114
/-- What the weighted sum of luma is divided by (R13). -/
abbrev lumaScale : Nat := 1000

end Sys2Proof.Config

namespace Sys2Proof.Machine

open Sys2Proof

/-- `luma(r, g, b) = (299·r + 587·g + 114·b) div 1000`, exact (R13, D13). -/
def luma (c : RGB) : Nat :=
  (Config.lumaRed * c.r.toNat + Config.lumaGreen * c.g.toNat + Config.lumaBlue * c.b.toNat) / Config.lumaScale

/-- The gray triple of level `y`. -/
def grayLevel (y : Nat) : RGB := ⟨BitVec.ofNat 8 y, BitVec.ofNat 8 y, BitVec.ofNat 8 y⟩

/-- `gray(c)`: the luma replicated into R, G and B (R13). -/
def gray (c : RGB) : RGB := grayLevel (luma c)

/-- `v[hi:lo]` of R9 as a natural number: `(v div 2^lo) mod 2^(hi−lo+1)`. -/
def field (v : Byte) (hi lo : Nat) : Nat := v.toNat / 2 ^ lo % 2 ^ (hi - lo + 1)

/-- `v[i]` of R9: bit `i` of a byte, as a truth value. -/
def bit (v : Byte) (i : Nat) : Bool := v.getLsbD i

/-- `PAL16` at reset: the table of R40 (PRESUMED, log 15: entries other than 0 and 4 are the spec's general
knowledge G1). -/
def pal16Default : Vector RGB Config.paletteSize :=
  #v[⟨0, 0, 0⟩, ⟨0, 0, 170⟩, ⟨0, 170, 0⟩, ⟨0, 170, 170⟩,
     ⟨170, 0, 0⟩, ⟨170, 0, 170⟩, ⟨170, 85, 0⟩, ⟨170, 170, 170⟩,
     ⟨85, 85, 85⟩, ⟨85, 85, 255⟩, ⟨85, 255, 85⟩, ⟨85, 255, 255⟩,
     ⟨255, 85, 85⟩, ⟨255, 85, 255⟩, ⟨255, 255, 85⟩, ⟨255, 255, 255⟩]

/-- `MC_GRAY_DEFAULT` at reset: the value the spec takes (R6, D10; DESIGN CHOICE of the spec, log 14). -/
def mcGrayDefaultValue : Byte := 0x04

/-- The low level of `PAL_M5_GRAY` at reset: any level that leaves room for two brighter ones (R44, log 12). -/
def m5GrayLow : Nat := Config.m5GrayRaw 1 % 254

/-- The medium level: any level above the low one that leaves room for a brighter one (R44, log 12). -/
def m5GrayMedium : Nat := m5GrayLow + 1 + Config.m5GrayRaw 2 % (254 - m5GrayLow)

/-- The white level: any byte above the medium one (R44, log 12). -/
def m5GrayWhite : Nat := m5GrayMedium + 1 + Config.m5GrayRaw 3 % (255 - m5GrayMedium)

end Sys2Proof.Machine
end

