-- ==== Sys2Proof/Syntax.lean ====
section
/-! DEFINITION. The operations: one constructor per mnemonic of the opcode table. -/

namespace Sys2Proof

/-- The operations of the block (R2): what `opcode_table.json` lists.
The `render*` constructors but `render` are the operations the dispatcher selects by `mode_l` (format `MODE8`, R92);
`setmode<n>` are the set-mode command known by its argument (format `SETMODE_ARG8`, R93); the rest are the host
transactions (format `HOSTOP`, R102). -/
inductive Instr where
  /-- `RENDER.T40` (R180). -/
  | renderT40
  /-- `RENDER.T80` (R180). -/
  | renderT80
  /-- `RENDER.G320` (R150). -/
  | renderG320
  /-- `RENDER.G320M5` (R160). -/
  | renderG320M5
  /-- `RENDER.G640` (R170). -/
  | renderG640
  /-- `RENDER.UNSUPPORTED` (R122): the table's seven rows, `m` the latched mode. -/
  | renderUnsupported (m : Byte)
  /-- `SETMODE.0` (R206). -/
  | setmode0
  /-- `SETMODE.1` (R206). -/
  | setmode1
  /-- `SETMODE.4` (R206). -/
  | setmode4
  /-- `SETMODE.5` (R206). -/
  | setmode5
  /-- `SETMODE.6` (R206). -/
  | setmode6
  /-- `POKE addr, val` (R200). -/
  | poke (addr : Nat) (val : Byte)
  /-- `PEEK addr` (R201). -/
  | peek (addr : Nat)
  /-- `OUT port, val` (R202). -/
  | portOut (port : Nat) (val : Byte)
  /-- `IN port` (R203). -/
  | portIn (port : Nat)
  /-- `SETMODE n` (R206). -/
  | setmode (n : Byte)
  /-- `BLINK b` (R208). -/
  | blink (b : BitVec 1)
  /-- `RENDER img`; `none` names no image (R120). Images are named by their index among the host's images. -/
  | render (img : Option Nat)
deriving DecidableEq, Repr

end Sys2Proof
end

