-- ==== Sys2Proof/WellFormed.lean ====
section
/-! DEFINITION. Which operations have their operands in the ranges the spec states (R102, R93, R92). -/

namespace Sys2Proof

/-- The operands are in range: `addr < MEM_SIZE`, `port < PORT_COUNT` (R102), a defined set-mode argument (R93),
a mode with no routine for `RENDER.UNSUPPORTED` (R92). -/
def Instr.wellFormed : Instr → Bool
  | .poke addr _ => decide (addr < Config.memSize)
  | .peek addr => decide (addr < Config.memSize)
  | .portOut port _ => decide (port < Config.portCount)
  | .portIn port => decide (port < Config.portCount)
  | .setmode n => Config.supportedMode n
  | .renderUnsupported m => !Config.supportedMode m
  | .renderT40 => true
  | .renderT80 => true
  | .renderG320 => true
  | .renderG320M5 => true
  | .renderG640 => true
  | .setmode0 => true
  | .setmode1 => true
  | .setmode4 => true
  | .setmode5 => true
  | .setmode6 => true
  | .blink _ => true
  | .render _ => true

end Sys2Proof
end

