-- ==== Sys2Proof/Decode.lean ====
section
/-! DEFINITION. The decoder of the three formats, total and rejecting by name, the encoder, and the reading of the
opcode table's numbers. -/

namespace Sys2Proof

/-- Why a word is no operation. Each of these is safe: the machine stops where the spec gives no meaning. -/
inductive DecodeReject where
  /-- `HOSTOP` tag 7 (R102, R103, U11). -/
  | reservedTag
  /-- A `HOSTOP` tag with another number of operand fields than R102 gives it. -/
  | operandCount
  /-- An operand that does not fit its field: a value wider than a byte (R66, U12) or a blink phase wider than a bit. -/
  | operandTooWide
  /-- A `SETMODE_ARG8` word other than 0, 1, 4, 5, 6 (R93, U2). -/
  | setmodeArgument
  /-- A `MODE8` word that no row of R92 matches; the rows cover all 256 values, so nothing raises it. -/
  | modeWithoutRow
deriving DecidableEq, Repr

/-- A row of R92's operation map: the words `m` with `m &&& mask = pattern`, and the operation they select. -/
structure ModeRow where
  /-- The bits of `mode_l` that the row fixes. -/
  mask : Byte
  /-- Their values. -/
  pattern : Byte
  /-- The operation selected. -/
  op : Byte → Instr

/-- The row matches the word (R92). -/
def ModeRow.matches (row : ModeRow) (m : Byte) : Bool := (m &&& row.mask) == row.pattern

/-- The twelve rows of R92, in its order. -/
def modeRows : List ModeRow :=
  [ ⟨0xFF, Config.modeT40, fun _ => .renderT40⟩,
    ⟨0xFF, Config.modeT80, fun _ => .renderT80⟩,
    ⟨0xFF, Config.modeG320, fun _ => .renderG320⟩,
    ⟨0xFF, Config.modeG320M5, fun _ => .renderG320M5⟩,
    ⟨0xFF, Config.modeG640, fun _ => .renderG640⟩,
    ⟨0xFE, 0x02, .renderUnsupported⟩,
    ⟨0xFF, 0x07, .renderUnsupported⟩,
    ⟨0xF8, 0x08, .renderUnsupported⟩,
    ⟨0xF0, 0x10, .renderUnsupported⟩,
    ⟨0xE0, 0x20, .renderUnsupported⟩,
    ⟨0xC0, 0x40, .renderUnsupported⟩,
    ⟨0x80, 0x80, .renderUnsupported⟩ ]

/-- Decoding a `MODE8` word: the dispatcher's selection by `mode_l` alone (R92, R121). -/
def decodeMode8 (m : Byte) : Except DecodeReject Instr :=
  match modeRows.find? (fun row => row.matches m) with
  | some row => .ok (row.op m)
  | none => .error .modeWithoutRow

/-- Decoding a `SETMODE_ARG8` word (R93). -/
def decodeSetmodeArg8 (n : Byte) : Except DecodeReject Instr :=
  if n = 0 then .ok .setmode0
  else if n = 1 then .ok .setmode1
  else if n = 4 then .ok .setmode4
  else if n = 5 then .ok .setmode5
  else if n = 6 then .ok .setmode6
  else .error .setmodeArgument

/-- An operand field of `width` bits, as an operation's argument. -/
def operandField (width v : Nat) (op : BitVec width → Instr) : Except DecodeReject Instr :=
  if v < 2 ^ width then .ok (op (BitVec.ofNat width v)) else .error .operandTooWide

/-- The image operand of `RENDER`: 0 is the null image, `i + 1` is image `i` (log 1, DESIGN CHOICE). -/
def imageOperand : Nat → Option Nat
  | 0 => none
  | i + 1 => some i

/-- Decoding a `HOSTOP` word: tag and operand fields as R102 lists them. -/
def decodeHostop (tag : BitVec 3) (operands : List Nat) : Except DecodeReject Instr :=
  match tag.toNat, operands with
  | 0, [addr, val] => operandField 8 val (.poke addr)
  | 1, [addr] => .ok (.peek addr)
  | 2, [port, val] => operandField 8 val (.portOut port)
  | 3, [port] => .ok (.portIn port)
  | 4, [n] => operandField 8 n .setmode
  | 5, [b] => operandField 1 b .blink
  | 6, [img] => .ok (.render (imageOperand img))
  | 7, _ => .error .reservedTag
  | _, _ => .error .operandCount

/-- The decoder, by format (R90). -/
def decode : OpWord → Except DecodeReject Instr
  | .hostop tag operands => decodeHostop tag operands
  | .setmodeArg8 n => decodeSetmodeArg8 n
  | .mode8 m => decodeMode8 m

/-- The field of `RENDER`'s image operand. -/
def imageField : Option Nat → Nat
  | none => 0
  | some i => i + 1

/-- The word of an operation, from R92, R93 and R102. -/
def encode : Instr → OpWord
  | .renderT40 => .mode8 Config.modeT40
  | .renderT80 => .mode8 Config.modeT80
  | .renderG320 => .mode8 Config.modeG320
  | .renderG320M5 => .mode8 Config.modeG320M5
  | .renderG640 => .mode8 Config.modeG640
  | .renderUnsupported m => .mode8 m
  | .setmode0 => .setmodeArg8 0x00
  | .setmode1 => .setmodeArg8 0x01
  | .setmode4 => .setmodeArg8 0x04
  | .setmode5 => .setmodeArg8 0x05
  | .setmode6 => .setmodeArg8 0x06
  | .poke addr val => .hostop 0 [addr, val.toNat]
  | .peek addr => .hostop 1 [addr]
  | .portOut port val => .hostop 2 [port, val.toNat]
  | .portIn port => .hostop 3 [port]
  | .setmode n => .hostop 4 [n.toNat]
  | .blink b => .hostop 5 [b.toNat]
  | .render img => .hostop 6 [imageField img]

/-- The operand fields of a word lie in the ranges R102 states, and the word is one of its format's rows. -/
def wordInRange : OpWord → Bool
  | .hostop tag operands =>
    match tag.toNat, operands with
    | 0, [addr, val] => decide (addr < Config.memSize) && decide (val < 256)
    | 1, [addr] => decide (addr < Config.memSize)
    | 2, [port, val] => decide (port < Config.portCount) && decide (val < 256)
    | 3, [port] => decide (port < Config.portCount)
    | 4, [n] => decide (n < 256) && Config.supportedMode (BitVec.ofNat 8 n)
    | 5, [b] => decide (b < 2)
    | 6, [_] => true
    | _, _ => false
  | .setmodeArg8 n => Config.supportedMode n
  | .mode8 _ => true

/-- How many operand fields R102 gives a `HOSTOP` tag. -/
def operandCount (tag : Nat) : Nat :=
  if tag = 0 ∨ tag = 2 then 2 else if tag = 7 then 0 else 1

/-- The word that a number of the opcode table stands for. The table's three formats number their rows on their own, so
that one number can be a row of two or three of them: a number that is a row of `HOSTOP` (0 to 6) is read as that
transaction with every operand field 0; any other number of one byte is a row of `MODE8` only and is read as that.
The `SETMODE_ARG8` rows share all their numbers with `HOSTOP` (log 2, DESIGN CHOICE). -/
def tableWord (nbits w : Nat) : Option OpWord :=
  if w < 2 ^ nbits ∧ w < 7 then
    some (.hostop (BitVec.ofNat 3 w) (List.replicate (operandCount w) 0))
  else if w < 2 ^ nbits ∧ w < 256 then some (.mode8 (BitVec.ofNat 8 w))
  else none

/-- The operation the decoder reads from a number of the opcode table (log 2). -/
def decodeTableWord (nbits w : Nat) : Option Instr :=
  match tableWord nbits w with
  | some word => (decode word).toOption
  | none => none

end Sys2Proof
end

