-- ==== Sys2Proof/Machine/State.lean ====
section
/-! DEFINITION. The state of the block as plain data, its value after reset, and the reasons a step can stop. -/

namespace Sys2Proof.Machine

open Sys2Proof

/-- A space of bytes (R21, R22) as address and byte pairs, addresses strictly rising, no entry 0: every address not
listed reads 0, since the block is "zero-initialized" (R50). -/
abbrev Memory := List Host.Cell

/-- The render-time latches of R30. Each request has its own (R79: "they live for one request"; log 10). -/
structure Latches where
  /-- `mode_l`. -/
  mode : Byte
  /-- `mc_l`. -/
  mc : Byte
  /-- `cs_l`. -/
  cs : Byte
  /-- `blink_l`. -/
  blink : BitVec 1
deriving DecidableEq, Repr

/-- The raster position of R33: the coordinates of the pixel being produced. -/
structure Raster where
  /-- Pixels from the left edge. -/
  x : Nat
  /-- Rows from the top. -/
  y : Nat
deriving DecidableEq, Repr

/-- A render request in progress (R120, R211): from the sampling of the latches to its result. -/
structure Request where
  /-- The image the request names, by its index among the host's images. -/
  img : Nat
  /-- The four latches (R30). -/
  latches : Latches
  /-- The raster position (R33). -/
  raster : Raster
  /-- The model's own: what `memory` held at the start of the request and after every host step since, the latest
  first (R73(b), log 5). -/
  seen : List Memory
deriving DecidableEq, Repr

/-- An `Image` (R34), owned by the host (R35). -/
structure Image where
  /-- Bytes in `pixels` (R35). -/
  capacity : Nat
  /-- The model's own: which image this is, for its unspecified bytes (log 8). -/
  token : Nat
  /-- The bytes of `pixels` from offset 0 up to the last one that a frame or the host has written; the bytes after them
  hold what the image held before, `Config.imageByte` (R252, U8; log 8). -/
  drawn : List Byte
  /-- `width`. -/
  width : Nat
  /-- `height`. -/
  height : Nat
  /-- `aspectRatio`. -/
  aspectRatio : Nat
deriving DecidableEq, Repr

/-- The three observable entries of a mode-5 palette (R42 to R44). -/
structure M5Set where
  /-- Entry 1 (cyan, low gray). -/
  entry1 : RGB
  /-- Entry 2 (red, medium gray). -/
  entry2 : RGB
  /-- Entry 3 (white, white gray). -/
  entry3 : RGB
deriving DecidableEq, Repr

/-- The read-only tables and the parameters of the block (R20, R6, R40 to R46). No operation writes them (R46). -/
structure Tables where
  /-- `PAL16` (R40). -/
  pal16 : Vector RGB Config.paletteSize
  /-- `PAL_M5_COLOR[1..3]` (R43). -/
  m5Color : M5Set
  /-- `PAL_M5_GRAY[1..3]` (R44). -/
  m5Gray : M5Set
  /-- `FONT` (R45). -/
  font : Vector Byte Config.fontSize
  /-- `MC_GRAY_DEFAULT` (R6, R206). -/
  mcGrayDefault : Byte
  /-- `ASPECT` (R6, R34). -/
  aspect : Nat
deriving DecidableEq, Repr

/-- The result of a render request (R32, R220). -/
inductive Result where
  /-- A complete frame was written. -/
  | ok
  /-- `mode_l` has no routine (R221). -/
  | unsupported
  /-- The request named no image (R222). -/
  | noTarget
deriving DecidableEq, Repr

/-- What an operation returned to its caller (R32, R201, R203, R211). -/
inductive Reply where
  /-- Nothing. -/
  | none
  /-- The byte PEEK or IN returns. -/
  | byte (v : Byte)
  /-- The result of a render request. -/
  | result (r : Result)
  /-- The code the host reads from `KEYLATCH` (R29, R230). -/
  | key (v : BitVec 16)
  /-- The `width`, `height` and `aspectRatio` the host reads from an image (R209). -/
  | fields (width height aspectRatio : Nat)
deriving DecidableEq, Repr

/-- The four latches, by name (R30). -/
inductive LatchName where
  /-- `mode_l`. -/
  | mode
  /-- `mc_l`. -/
  | mc
  /-- `cs_l`. -/
  | cs
  /-- `blink_l`. -/
  | blink
deriving DecidableEq, Repr

/-- Who moves next while a render request is in progress (R73, log 5). An image names the request on it. -/
inductive Turn where
  /-- The host makes its next move. -/
  | host
  /-- The renderer draws the frame of the request on image `img` and ends that request. -/
  | renderer (img : Nat)
  /-- The read of one latch of the request on image `img` happens only now: the four samples are separate reads (R73(a),
  log 6). -/
  | sample (img : Nat) (l : LatchName)
deriving DecidableEq, Repr

/-- A move of the host: an operation of the table, or one of the accesses that the rights of R230 and R209 give the host
and the table has no operation for (log 22). -/
inductive HostMove where
  /-- An operation of the table (R102, R93). -/
  | op (w : OpWord)
  /-- Write `KEYLATCH` (R29, R230). -/
  | keyWrite (v : BitVec 16)
  /-- Read `KEYLATCH` (R29, R230). -/
  | keyRead
  /-- Write the byte at offset `k` of `pixels` of image `i`, which the host owns (R209, R230). -/
  | imageWrite (i k : Nat) (v : Byte)
  /-- Read the byte at offset `k` of `pixels` of image `i` (R209, R230). -/
  | imageRead (i k : Nat)
  /-- Write `width`, `height` and `aspectRatio` of image `i` (R209, R230). -/
  | fieldsWrite (i width height aspectRatio : Nat)
  /-- Read `width`, `height` and `aspectRatio` of image `i` (R209, R230). -/
  | fieldsRead (i : Nat)
deriving DecidableEq, Repr

/-- The state of the block (R20), with the host's side of the interface (R210, R211). -/
structure State where
  /-- `memory` (R21). -/
  mem : Memory
  /-- `ports` (R22), `MC` (R23) and `CS` (R24) among them. -/
  ports : Memory
  /-- `MODE` (R25). -/
  mode : Byte
  /-- `BLINK` (R26). -/
  blink : BitVec 1
  /-- `KEYLATCH` (R29): scan code in bits 15:8, ASCII in bits 7:0. -/
  keyLatch : BitVec 16
  /-- The render requests in progress, each with its latches (R30) and raster position (R33), no two on one image (R233);
  none at reset (R50). The renderer works on the first. -/
  requests : List Request
  /-- The read-only tables (R40 to R46). -/
  tables : Tables
  /-- The images the host owns (R34, R35). -/
  images : List Image
  /-- The model's own: what the last operation returned (R32; log 20). -/
  reply : Reply
  /-- The model's own: the host's moves not yet made, in order (R105, R211; log 3). -/
  queue : List HostMove
  /-- The model's own: who moves next while a request is in progress; empty is the atomic model R72 (log 5). -/
  schedule : List Turn
  /-- The model's own: the counter the free value `Config.tornDraw` is read at (log 5). -/
  draws : Nat
deriving DecidableEq, Repr

/-- Why the machine would stop with a fault: never. "Nothing in the block faults or gets stuck"
(93_implementation_defined.md, part 1; R224). -/
inductive Fault where
deriving DecidableEq, Repr

/-- Why the machine takes no step. Each is safe: the model stops where the spec gives no meaning. -/
inductive Refusal where
  /-- An operation of the table without a meaning in this model; no arm of `exec` answers it. Safe. -/
  | notModelled (mnemonic : String)
  /-- A fetched word is no operation (U2, U11, U12). Raised by the step; safe. -/
  | undecoded (why : DecodeReject)
  /-- POKE or PEEK with `addr ≥ MEM_SIZE` (R69, U1). Safe. -/
  | addressOutOfRange
  /-- OUT or IN with `port ≥ PORT_COUNT` (R69, U1). Safe. -/
  | portOutOfRange
  /-- SETMODE with an argument other than 0, 1, 4, 5, 6 (R206, U2). Safe. -/
  | setmodeArgument
  /-- A routine entered other than through the dispatcher: no request in progress, or its `mode_l` selects another one
  (R223, U3). Raised by the `MODE8` operations; safe. -/
  | notDispatched
  /-- RENDER of, or a host access to, an image the host does not own (R120: the operand is an image or none). Safe. -/
  | noSuchImage
  /-- RENDER naming an image of less than `IMG_CAP` bytes (R35, U6). Safe. -/
  | imageTooSmall
  /-- RENDER naming an image that a request is in progress on: "on the same image the result is not defined and the model
  refuses it" (R233, U7). Safe. -/
  | requestInProgress
  /-- A host access to an image that a request is in progress on (R76, R230, U13). Safe. -/
  | imageInUse
  /-- A host access past the capacity of an image's `pixels` (R35, R34). Safe. -/
  | imageOffsetOutOfRange
deriving DecidableEq, Repr

/-- The tables at reset: their constant contents (R50), the OPEN ones opaque (logs 11 to 15). -/
def Tables.initial : Tables where
  pal16 := pal16Default
  m5Color := ⟨Config.m5ColorEntry 1, Config.m5ColorEntry 2, Config.m5ColorEntry 3⟩
  m5Gray := ⟨grayLevel m5GrayLow, grayLevel m5GrayMedium, grayLevel m5GrayWhite⟩
  font := Vector.ofFn fun i => Config.fontByte i.val
  mcGrayDefault := mcGrayDefaultValue
  aspect := Config.aspect

/-- The image the presenter has allocated (R35, R253(a)), its content and dimensions unspecified (R252; logs 8, 9). -/
def Image.initial (token : Nat) : Image where
  capacity := Config.imgCap
  token := token
  drawn := []
  width := Config.imageWidth token
  height := Config.imageHeight token
  aspectRatio := Config.imageAspect token

/-- The machine right after reset (R50, R250). -/
def State.reset : State where
  mem := []
  ports := []
  mode := 0
  blink := 0
  keyLatch := 0
  requests := []
  tables := Tables.initial
  images := [Image.initial 0]
  reply := .none
  queue := []
  schedule := []
  draws := 0

end Sys2Proof.Machine
end

