-- ==== Sys2Proof/Machine/Ops.lean ====
section
/-! DEFINITION. The named operations over memory, ports, latches, images and the render request. -/

namespace Sys2Proof.Machine

open Sys2Proof

/-! ## Byte spaces -/

/-- The byte at an address: the listed one, or 0 (R21, R50). -/
def Memory.read : Memory → Nat → Byte
  | [], _ => 0
  | c :: rest, a => if c.1 = a then c.2 else Memory.read rest a

/-- `memory[a] <- v` (R10), keeping the canonical form: writing 0 removes the entry. -/
def Memory.write : Memory → Nat → Byte → Memory
  | [], a, v => if v = 0 then [] else [(a, v)]
  | c :: rest, a, v =>
    if a < c.1 then (if v = 0 then c :: rest else (a, v) :: c :: rest)
    else if a = c.1 then (if v = 0 then rest else (a, v) :: rest)
    else c :: Memory.write rest a v

/-- Zeroing the `size` bytes from `base` on (R206: "zero the video-RAM region"). -/
def Memory.clearRange (m : Memory) (base size : Nat) : Memory :=
  m.filter fun c => !(decide (base ≤ c.1) && decide (c.1 < base + size))

/-- The canonical form: addresses strictly rising, no entry 0. -/
abbrev Memory.wf (m : Memory) : Prop :=
  m.Pairwise (fun c d => c.1 < d.1) ∧ ∀ c ∈ m, c.2 ≠ 0

/-- Every listed address lies in a space of `size` bytes (R60). -/
abbrev Memory.inside (m : Memory) (size : Nat) : Prop := ∀ c ∈ m, c.1 < size

/-- `VRAM(o)` of R10. -/
def Memory.vram (m : Memory) (o : Nat) : Byte := m.read (Config.vramBase + o)

/-! ## Host-side writes -/

/-- Store a byte of `memory` (R200). -/
def State.pokeByte (s : State) (a : Nat) (v : Byte) : State :=
  { s with mem := s.mem.write a v }

/-- Store a byte of `ports` (R202). -/
def State.outByte (s : State) (p : Nat) (v : Byte) : State :=
  { s with ports := s.ports.write p v }

/-- Mode Control, `ports[MC_PORT]` (R23). -/
def State.mc (s : State) : Byte := s.ports.read Config.mcPort

/-- Color Select, `ports[CS_PORT]` (R24). -/
def State.cs (s : State) : Byte := s.ports.read Config.csPort

/-- What the operation returns to its caller (R32). -/
def State.answer (s : State) (r : Reply) : State := { s with reply := r }

/-- The four side effects of the set-mode command (R206): Color Select cleared, both banks of video RAM zeroed, `MODE`
set, and for modes 0 and 5 the default Mode Control value. -/
def State.setMode (s : State) (n : Byte) : State :=
  let ports := s.ports.write Config.csPort 0
  { s with
    ports := if Config.setsMcGray n then ports.write Config.mcPort s.tables.mcGrayDefault else ports
    mem := s.mem.clearRange Config.vramBase Config.vramSize
    mode := n }

/-- The scan code of `KEYLATCH` (R29). -/
def State.keyScan (s : State) : Byte := s.keyLatch.extractLsb' Config.keyScanLo 8

/-- The ASCII code of `KEYLATCH` (R29). -/
def State.keyAscii (s : State) : Byte := s.keyLatch.extractLsb' Config.keyAsciiLo 8

/-! ## Latches -/

/-- The four samples a render request takes at its start (R30, R120). -/
def State.sampled (s : State) : Latches := ⟨s.mode, s.mc, s.cs, s.blink⟩

/-- The latches with one of them sampled only now (R73(a), log 6). -/
def State.resampled (s : State) (l : Latches) : LatchName → Latches
  | .mode => { l with mode := s.mode }
  | .mc => { l with mc := s.mc }
  | .cs => { l with cs := s.cs }
  | .blink => { l with blink := s.blink }

/-- The sample of one latch of the request on image `i`, taken only now (R73(a), log 6). -/
def State.sampleLatch (s : State) (i : Nat) (name : LatchName) : State :=
  { s with requests := s.requests.map fun q =>
      if q.img = i then { q with latches := s.resampled q.latches name } else q }

/-! ## Images -/

/-- The byte of `pixels` at offset `k`: what a frame wrote there, or what the image held before (R34, R252). -/
def Image.byte (img : Image) (k : Nat) : Byte := img.drawn[k]?.getD (Config.imageByte img.token k)

/-- The pixel at `(x, y)` under the image's own width (R11, R100, D12). -/
def Image.pixel (img : Image) (x y : Nat) : RGB :=
  let k := Config.pixelBytes * (y * img.width + x)
  ⟨img.byte k, img.byte (k + 1), img.byte (k + 2)⟩

/-- The first `n` bytes of `pixels` as they stand. -/
def Image.held (img : Image) (n : Nat) : List Byte := (List.range n).map img.byte

/-- The image's rows of bytes after a frame of `n` bytes (R34): bytes from `n` on stay as they were. -/
def Image.withPixels (img : Image) (bytes : List Byte) (n : Nat) : Image :=
  { img with drawn := bytes ++ img.drawn.drop n }

/-- `img.width <- w ; img.height <- h`. -/
def Image.withSize (img : Image) (w h : Nat) : Image := { img with width := w, height := h }

/-- `img.pixels[k] <- v`, every other byte as it stands. -/
def Image.withByte (img : Image) (k : Nat) (v : Byte) : Image :=
  { img with drawn := img.held k ++ v :: img.drawn.drop (k + 1) }

/-- A render request on image `i` is in progress. -/
def State.inUse (s : State) (i : Nat) : Bool := s.requests.any fun q => q.img == i

/-! ## The render request -/

/-- A render request on image `i` as it starts (R120): the four latches sampled, the raster position at the first pixel
(R33), and what `memory` holds now the first thing a VRAM read may see (R73(b)). -/
def State.newRequest (s : State) (i : Nat) : Request := ⟨i, s.sampled, ⟨0, 0⟩, [s.mem]⟩

/-- The start of a render request (R120), beside those in progress on other images (R233). -/
def State.openRequest (s : State) (i : Nat) : State :=
  { s with requests := s.requests ++ [s.newRequest i], reply := .none }

/-- The renderer turns to the request on image `i`: it comes first, the others keep their order (R233). -/
def State.bringForward (s : State) (i : Nat) : State :=
  { s with requests := s.requests.filter (fun q => q.img == i) ++ s.requests.filter fun q => !(q.img == i) }

/-- The request a `MODE8` operation of mode `m` works on, with its image: the dispatcher must have selected it (R121,
R223, U3), and the image must hold `IMG_CAP` bytes (R35, U6). -/
def State.dispatched (s : State) (m : Byte) : Except Refusal (Request × Image) :=
  match s.requests with
  | [] => .error .notDispatched
  | q :: _ =>
    if q.latches.mode = m then
      match s.images[q.img]? with
      | none => .error .noSuchImage
      | some img => if Config.imgCap ≤ img.capacity then .ok (q, img) else .error .imageTooSmall
    else .error .notDispatched

/-- The end of the request the renderer works on, with its result (R32, R220): the image as it is left, its latches and
raster position gone (R50, R79), the other requests as they were (R233). -/
def State.closeRequest (s : State) (i : Nat) (img : Image) (r : Result) : State :=
  { s with images := s.images.set i img, requests := s.requests.tail, reply := .result r }

/-- Raising `Unsupported` (R221, R227): the "trap entry" of the block. The image's dimensions become 0, no pixel byte and
no `aspectRatio` is written (D28), nothing is saved, and the request ends. There is no return operation (R228). -/
def State.raiseUnsupported (s : State) (q : Request) (img : Image) : State :=
  s.closeRequest q.img (img.withSize 0 0) .unsupported

/-- `NoTarget` (R222): nothing is read or written but the result returned. -/
def State.noTarget (s : State) : State := s.answer (.result .noTarget)

/-- A request for which `memory` now holds `m`: one more thing a VRAM read may see, if it is new (R73(b)). -/
def Request.note (q : Request) (m : Memory) : Request :=
  if q.seen.head? = some m then q else { q with seen := m :: q.seen }

/-- After a host step during a request: every request in progress notes what `memory` holds now (R73(b)). -/
def State.noteSeen (s : State) : State :=
  { s with requests := s.requests.map fun q => q.note s.mem }

/-- The VRAM byte at offset `o` that the pixel at `(x, y)` of the request's frame sees: a value the byte held at some
moment of the request (R73(b) to (d)); with no host step in between, the byte itself (R72). -/
def State.vramSeen (s : State) (q : Request) (x y o : Nat) : Byte :=
  ((q.seen[Config.tornDraw s.draws x y o % q.seen.length]?).getD s.mem).vram o

/-! ## What the host reads of an image -/

/-- The pixel the host finds at `(x, y)` of image `i` (R209): nothing while a request on that image is in progress (R76,
U13), and nothing outside `width × height`, so nothing after `Unsupported` (R258). -/
def State.readPixel (s : State) (i x y : Nat) : Option RGB :=
  match s.images[i]? with
  | none => none
  | some img => if s.inUse i = false ∧ x < img.width ∧ y < img.height then some (img.pixel x y) else none

/-- The image the host accesses: one it owns (R209, R230), with no request in progress on it (R76, U13). -/
def State.ownImage (s : State) (i : Nat) : Except Refusal Image :=
  match s.images[i]? with
  | none => .error .noSuchImage
  | some img => if s.inUse i then .error .imageInUse else .ok img

/-- The host leaves image `i` as `img` (R209: "it owns it"). -/
def State.putImage (s : State) (i : Nat) (img : Image) : State :=
  { s with images := s.images.set i img, reply := .none }

end Sys2Proof.Machine
end

