-- ==== Sys2Proof/Machine/Flags.lean ====
section
/-! DEFINITION. The fields of the two control bytes as a request has latched them. The block has no condition codes,
carry or overflow flags (R32). -/

namespace Sys2Proof.Machine

open Sys2Proof

/-- `MC.BW`, bit 2 of `mc_l` (R23): B/W select. -/
def Latches.bw (l : Latches) : Bool := bit l.mc Config.mcBwBit

/-- `MC.BLINK_EN`, bit 5 of `mc_l` (R23): global blink enable. -/
def Latches.blinkEnable (l : Latches) : Bool := bit l.mc Config.mcBlinkBit

/-- `CS.COLOR`, `cs_l[3:0]` (R24): the border/background colour index. -/
def Latches.color (l : Latches) : Nat := field l.cs Config.csColorHi Config.csColorLo

/-- `CS.INTEN`, bit 4 of `cs_l` (R24). -/
def Latches.inten (l : Latches) : Bool := bit l.cs Config.csIntenBit

/-- `CS.PALSEL`, bit 5 of `cs_l` (R24). -/
def Latches.palsel (l : Latches) : Bool := bit l.cs Config.csPalselBit

end Sys2Proof.Machine
end

