-- ==== Sys2Proof/Machine/Operands.lean ====
section
/-! DEFINITION. The operands a routine assembles (R101): addresses, pixel values, cells, attributes, glyph bits, and the
palettes they index. -/

namespace Sys2Proof.Machine

open Sys2Proof

/-! ## Graphics bytes -/

/-- `GOFF(row, k)`: the VRAM offset of byte `k` of scanline `row`, bank-interleaved (R135, R136). -/
def goff (row k : Nat) : Nat :=
  row % Config.banks * Config.bankSize + row / Config.banks * Config.rowBytes + k

/-- `PIX2`: the 2-bit pixel value of column `col` in a byte (R94). -/
def pix2 (b : Byte) (col : Nat) : Nat :=
  b.toNat / 2 ^ ((Config.pix2PerByte - 1 - col % Config.pix2PerByte) * Config.pix2Bits) % 2 ^ Config.pix2Bits

/-- `PIX1`: the 1-bit pixel value of column `col` in a byte (R95). -/
def pix1 (b : Byte) (col : Nat) : Bool := bit b (Config.pix1PerByte - 1 - col % Config.pix1PerByte)

/-! ## Text cells -/

/-- The VRAM offset of the cell that display position `(row, col)` lies in (R96, R181). -/
def cellOffset (columns row col : Nat) : Nat :=
  (row / Config.cellHeight * columns + col / Config.cellWidth) * Config.cellBytes

/-- `fg`, attribute bits 3:0 in both formats (R98, R99). -/
def attrFg (attr : Byte) : Nat := field attr Config.attrFgHi Config.attrFgLo

/-- `bg`: bits 6:4 when blink is enabled (`ATTR_BLINK`, R98), bits 7:4 when not (`ATTR_NOBLINK`, R99). -/
def attrBg (blinkEnable : Bool) (attr : Byte) : Nat :=
  if blinkEnable then field attr Config.attrBgHiBlink Config.attrBgLo
  else field attr Config.attrBgHiNoBlink Config.attrBgLo

/-- `bf`, the blink flag: bit 7 when blink is enabled, 0 when not (R98, R99, R185). -/
def attrFlag (blinkEnable : Bool) (attr : Byte) : Bool := blinkEnable && bit attr Config.attrFlagBit

/-- The cell is drawn with foreground and background exchanged (R186). -/
def blinks (l : Latches) (attr : Byte) : Bool :=
  l.blinkEnable && l.blink == 1 && attrFlag l.blinkEnable attr

/-- The colour index a text pixel shows: foreground for a glyph bit 1, background for 0, exchanged while the cell
blinks (R185, R186). -/
def textIndex (l : Latches) (attr : Byte) (glyphBit : Bool) : Nat :=
  let fg := attrFg attr
  let bg := attrBg l.blinkEnable attr
  let shown := if blinks l attr then (bg, fg) else (fg, bg)
  if glyphBit then shown.1 else shown.2

/-! ## Tables -/

/-- A palette entry. Every index a routine forms is below 16 (R139). -/
def paletteAt (p : Vector RGB Config.paletteSize) (i : Nat) : RGB := p[i]?.getD RGB.black

/-- `GRAY16[i] = gray(PAL16[i])` (R41, D7). -/
def Tables.gray16 (t : Tables) : Vector RGB Config.paletteSize := t.pal16.map gray

/-- `FONT[i]` (R45). Every index a routine forms is below 2,048 (R182). -/
def Tables.fontAt (t : Tables) (i : Nat) : Byte := t.font[i]?.getD 0

/-- The glyph bit of character `code` at display position `(row, col)`: bit `7 − gx` of byte `code·8 + gy` (R182). -/
def glyphBit (t : Tables) (code : Byte) (row col : Nat) : Bool :=
  bit (t.fontAt (code.toNat * Config.glyphBytes + row % Config.cellHeight))
    (Config.cellWidth - 1 - col % Config.cellWidth)

/-- Entry `v` of a mode-5 palette, v = 1, 2, 3 (R42 to R44). -/
def M5Set.entry (p : M5Set) (v : Nat) : RGB :=
  if v = 1 then p.entry1 else if v = 2 then p.entry2 else p.entry3

end Sys2Proof.Machine
end

