-- ==== Sys2Proof/Machine/Frame.lean ====
section
/-! DEFINITION. The shared frame contract (R130 to R140): geometry, border, and the composition of the frame in raster
order. -/

namespace Sys2Proof.Machine

open Sys2Proof

/-- A routine (R130): its active area, its border colour and its active-pixel function, the latter two already computed
from the latches and the tables; `active vram row col` reads video RAM through `vram`. -/
structure Routine where
  /-- `AW`. -/
  activeW : Nat
  /-- `AH`. -/
  activeH : Nat
  /-- `BORDERCOL`. -/
  borderCol : RGB
  /-- `ACTIVE(row, col)`. -/
  active : (vram : Nat → Byte) → (row col : Nat) → RGB

/-- `W = AW + 32` (R131). -/
def Routine.width (r : Routine) : Nat := r.activeW + 2 * Config.border

/-- `H = AH + 32` (R131). -/
def Routine.height (r : Routine) : Nat := r.activeH + 2 * Config.border

/-- An image position is active, not border (R132). -/
def Routine.isActive (r : Routine) (x y : Nat) : Bool :=
  decide (Config.border ≤ x ∧ x < Config.border + r.activeW ∧
    Config.border ≤ y ∧ y < Config.border + r.activeH)

/-- The colour of image position `(x, y)` (R133). -/
def Routine.pixel (r : Routine) (vram : Nat → Byte) (x y : Nat) : RGB :=
  if r.isActive x y then r.active vram (y - Config.border) (x - Config.border) else r.borderCol

/-- `n` pixels of row `y` from column `x` on, as bytes R, G, B (R33, R100). -/
def scanRow (pix : Nat → Nat → RGB) (y : Nat) : (n x : Nat) → List Byte
  | 0, _ => []
  | n + 1, x => (pix x y).r :: (pix x y).g :: (pix x y).b :: scanRow pix y n (x + 1)

/-- `h` rows of a frame of width `w` in raster order from a position on: the rest of its row, then whole rows (R33). -/
def scanRows (pix : Nat → Nat → RGB) (w : Nat) : (h : Nat) → Raster → List Byte
  | 0, _ => []
  | h + 1, p => scanRow pix p.y (w - p.x) p.x ++ scanRows pix w h ⟨0, p.y + 1⟩

/-- The image after `FRAME` (R133) with the colours `pix`, drawn from raster position `p` on: dimensions, aspect ratio,
and the first `W·H·3` bytes of `pixels`; the bytes after them stay (R34). -/
def Image.framed (img : Image) (r : Routine) (aspect : Nat) (p : Raster) (pix : Nat → Nat → RGB) : Image :=
  let bytes := img.held (Config.pixelBytes * (p.y * r.width + p.x)) ++ scanRows pix r.width (r.height - p.y) p
  { (img.withPixels bytes (Config.pixelBytes * (r.width * r.height))).withSize r.width r.height with
    aspectRatio := aspect }

/-- A `MODE8` operation with a routine: the dispatcher has selected mode `m`; the frame is drawn under the request's own
latches and the request ends with `Ok` (R120, R123, R133, R138). The counter of the free value moves on (log 5). -/
def State.drawFrame (s : State) (m : Byte) (routine : Latches → Tables → Routine) :
    Host.Outcome State Fault Refusal :=
  match s.dispatched m with
  | .error why => .refused why
  | .ok (q, img) =>
    let r := routine q.latches s.tables
    let pix := fun x y => r.pixel (s.vramSeen q x y) x y
    .next { s.closeRequest q.img (img.framed r s.tables.aspect q.raster pix) .ok with draws := s.draws + 1 }

end Sys2Proof.Machine
end

