-- ==== Sys2Proof/Machine/Graphics.lean ====
section
/-! DEFINITION. The three graphics routines: `G320` (R150 to R153), `G320M5` (R160 to R163), `G640` (R170 to R173). -/

namespace Sys2Proof.Machine

open Sys2Proof

/-- `COLIDX_G320(v)` (R151): the background index for 0, else a foreground set shifted by the intensity. -/
def colIdxG320 (l : Latches) (v : Nat) : Nat :=
  if v = 0 then l.color
  else
    let off := if l.inten then Config.intensityOffset else 0
    (if l.palsel then Config.foreground1 else Config.foreground0).getD (v - 1) 0 + off

/-- The routine `G320` (R150): 320×200, `PIX2`, colours from `PAL16`, border the colour of value 0 (R152). -/
def g320 (l : Latches) (t : Tables) : Routine where
  activeW := Config.width320
  activeH := Config.activeRows
  borderCol := paletteAt t.pal16 l.color
  active vram row col :=
    paletteAt t.pal16 (colIdxG320 l (pix2 (vram (goff row (col / Config.pix2PerByte))) col))

/-- `C0` of `G320M5` (R161): the Color Select colour, gray when `mc_l[2]` is set. -/
def m5Background (l : Latches) (t : Tables) : RGB :=
  if l.bw then gray (paletteAt t.pal16 l.color) else paletteAt t.pal16 l.color

/-- The colour of pixel value `v` in `G320M5` (R161). -/
def m5Color (l : Latches) (t : Tables) (v : Nat) : RGB :=
  if v = 0 then m5Background l t
  else if l.bw then t.m5Gray.entry v else t.m5Color.entry v

/-- The routine `G320M5` (R160): 320×200, `PIX2`, border `C0` (R162). -/
def g320m5 (l : Latches) (t : Tables) : Routine where
  activeW := Config.width320
  activeH := Config.activeRows
  borderCol := m5Background l t
  active vram row col := m5Color l t (pix2 (vram (goff row (col / Config.pix2PerByte))) col)

/-- The routine `G640` (R170): 640×200, `PIX1`; ink and border are the Color Select colour, paper `PAL16[0]` (R171,
R172). -/
def g640 (l : Latches) (t : Tables) : Routine where
  activeW := Config.width640
  activeH := Config.activeRows
  borderCol := paletteAt t.pal16 l.color
  active vram row col :=
    if pix1 (vram (goff row (col / Config.pix1PerByte))) col then paletteAt t.pal16 l.color
    else paletteAt t.pal16 Config.paperIndex

/-- `RENDER.G320` (R150). -/
def execRenderG320 (s : State) : Host.Outcome State Fault Refusal :=
  s.drawFrame Config.modeG320 g320

/-- `RENDER.G320M5` (R160). -/
def execRenderG320M5 (s : State) : Host.Outcome State Fault Refusal :=
  s.drawFrame Config.modeG320M5 g320m5

/-- `RENDER.G640` (R170). -/
def execRenderG640 (s : State) : Host.Outcome State Fault Refusal :=
  s.drawFrame Config.modeG640 g640

end Sys2Proof.Machine
end

