-- ==== Sys2Proof/Machine/HostOps.lean ====
section
/-! DEFINITION. The host's byte transactions and the blink phase (R200 to R203, R208), and its accesses to `KEYLATCH` and to
the images it owns (R209, R230). -/

namespace Sys2Proof.Machine

open Sys2Proof

/-- `POKE addr, val` (R200). -/
def execPoke (addr : Nat) (val : Byte) (s : State) : Host.Outcome State Fault Refusal :=
  if addr < Config.memSize then .next ((s.pokeByte addr val).answer .none) else .refused .addressOutOfRange

/-- `PEEK addr` (R201). -/
def execPeek (addr : Nat) (s : State) : Host.Outcome State Fault Refusal :=
  if addr < Config.memSize then .next (s.answer (.byte (s.mem.read addr))) else .refused .addressOutOfRange

/-- `OUT port, val` (R202). -/
def execPortOut (port : Nat) (val : Byte) (s : State) : Host.Outcome State Fault Refusal :=
  if port < Config.portCount then .next ((s.outByte port val).answer .none) else .refused .portOutOfRange

/-- `IN port` (R203). -/
def execPortIn (port : Nat) (s : State) : Host.Outcome State Fault Refusal :=
  if port < Config.portCount then .next (s.answer (.byte (s.ports.read port))) else .refused .portOutOfRange

/-- `BLINK b` (R208). -/
def execBlink (b : BitVec 1) (s : State) : Host.Outcome State Fault Refusal :=
  .next ({ s with blink := b }.answer .none)

/-! ## Accesses without an operation of the table (log 22) -/

/-- The host writes `KEYLATCH` (R29, R230). -/
def hostKeyWrite (v : BitVec 16) (s : State) : Host.Outcome State Fault Refusal :=
  .next ({ s with keyLatch := v }.answer .none)

/-- The host reads `KEYLATCH` (R29, R230). -/
def hostKeyRead (s : State) : Host.Outcome State Fault Refusal := .next (s.answer (.key s.keyLatch))

/-- The host writes a byte of the `pixels` of an image it owns (R209, R230). -/
def hostImageWrite (i k : Nat) (v : Byte) (s : State) : Host.Outcome State Fault Refusal :=
  match s.ownImage i with
  | .error why => .refused why
  | .ok img =>
    if k < img.capacity then .next (s.putImage i (img.withByte k v)) else .refused .imageOffsetOutOfRange

/-- The host reads a byte of the `pixels` of an image it owns (R209, R230). -/
def hostImageRead (i k : Nat) (s : State) : Host.Outcome State Fault Refusal :=
  match s.ownImage i with
  | .error why => .refused why
  | .ok img =>
    if k < img.capacity then .next (s.answer (.byte (img.byte k))) else .refused .imageOffsetOutOfRange

/-- The host writes the dimensions and the aspect ratio of an image it owns (R209, R230). -/
def hostFieldsWrite (i w h a : Nat) (s : State) : Host.Outcome State Fault Refusal :=
  match s.ownImage i with
  | .error why => .refused why
  | .ok img => .next (s.putImage i { img.withSize w h with aspectRatio := a })

/-- The host reads the dimensions and the aspect ratio of an image it owns (R209, R230). -/
def hostFieldsRead (i : Nat) (s : State) : Host.Outcome State Fault Refusal :=
  match s.ownImage i with
  | .error why => .refused why
  | .ok img => .next (s.answer (.fields img.width img.height img.aspectRatio))

end Sys2Proof.Machine
end

