-- ==== Sys2Proof/Machine/Render.lean ====
section
/-! DEFINITION. The render request (R120) and the mode without a routine (R122). -/

namespace Sys2Proof.Machine

open Sys2Proof

/-- `RENDER img` (R120) up to the dispatch: with no image `NoTarget` before anything else (R222, R226); else the latches
are sampled and the request is in progress, beside any on other images (R210, R233). The `case mode_l of` of R120 is the
`MODE8` operation that the renderer's turn runs (log 4). An image the host does not own, one that a request is in progress
on (R233, U7) and one too small (R35, U6) are refused. -/
def execRender (img : Option Nat) (s : State) : Host.Outcome State Fault Refusal :=
  match img with
  | none => .next s.noTarget
  | some i =>
    match s.images[i]? with
    | none => .refused .noSuchImage
    | some target =>
      if s.inUse i then .refused .requestInProgress
      else if Config.imgCap ≤ target.capacity then .next (s.openRequest i)
      else .refused .imageTooSmall

/-- `RENDER.UNSUPPORTED` (R122): the dispatcher's `otherwise` branch. A mode that has a routine never comes here. -/
def execRenderUnsupported (m : Byte) (s : State) : Host.Outcome State Fault Refusal :=
  if Config.supportedMode m then .refused .notDispatched
  else
    match s.dispatched m with
    | .error why => .refused why
    | .ok (q, img) => .next (s.raiseUnsupported q img)

end Sys2Proof.Machine
end

