-- ==== Sys2Proof/Machine/SetMode.lean ====
section
/-! DEFINITION. The set-mode command (R206), as a host transaction and by its argument (R93). -/

namespace Sys2Proof.Machine

open Sys2Proof

/-- `SETMODE n` (R206); an argument outside 0, 1, 4, 5, 6 is refused (R93, U2). -/
def execSetmode (n : Byte) (s : State) : Host.Outcome State Fault Refusal :=
  if Config.supportedMode n then .next ((s.setMode n).answer .none) else .refused .setmodeArgument

/-- `SETMODE.0` (R206): also writes Mode Control. -/
def execSetmode0 (s : State) : Host.Outcome State Fault Refusal := .next ((s.setMode 0).answer .none)

/-- `SETMODE.1` (R206). -/
def execSetmode1 (s : State) : Host.Outcome State Fault Refusal := .next ((s.setMode 1).answer .none)

/-- `SETMODE.4` (R206). -/
def execSetmode4 (s : State) : Host.Outcome State Fault Refusal := .next ((s.setMode 4).answer .none)

/-- `SETMODE.5` (R206): also writes Mode Control. -/
def execSetmode5 (s : State) : Host.Outcome State Fault Refusal := .next ((s.setMode 5).answer .none)

/-- `SETMODE.6` (R206). -/
def execSetmode6 (s : State) : Host.Outcome State Fault Refusal := .next ((s.setMode 6).answer .none)

end Sys2Proof.Machine
end

