-- ==== Sys2Proof/Machine/Text.lean ====
section
/-! DEFINITION. The text routines `T40` and `T80` and blink (R180 to R188). -/

namespace Sys2Proof.Machine

open Sys2Proof

/-- `PAL` of a text frame (R183): `GRAY16` when `mc_l[2]` is set, else `PAL16`. -/
def textPalette (l : Latches) (t : Tables) : Vector RGB Config.paletteSize := if l.bw then t.gray16 else t.pal16

/-- The text routine of `columns` columns (R180): 8×8-pixel cells, 25 rows, border `PAL[cs_l[3:0]]` (R184). -/
def textRoutine (columns : Nat) (l : Latches) (t : Tables) : Routine where
  activeW := columns * Config.cellWidth
  activeH := Config.activeRows
  borderCol := paletteAt (textPalette l t) l.color
  active vram row col :=
    let o := cellOffset columns row col
    paletteAt (textPalette l t) (textIndex l (vram (o + Config.attrOffset)) (glyphBit t (vram o) row col))

/-- `RENDER.T40` (R180). -/
def execRenderT40 (s : State) : Host.Outcome State Fault Refusal :=
  s.drawFrame Config.modeT40 (textRoutine Config.columnsT40)

/-- `RENDER.T80` (R180). -/
def execRenderT80 (s : State) : Host.Outcome State Fault Refusal :=
  s.drawFrame Config.modeT80 (textRoutine Config.columnsT80)

end Sys2Proof.Machine
end

