-- ==== Sys2Proof/Machine/Dispatch.lean ====
section
/-! DEFINITION. One arm per operation. -/

namespace Sys2Proof.Machine

open Sys2Proof

def exec (i : Instr) (s : State) : Host.Outcome State Fault Refusal :=
  match i with
  | .renderT40 => Sys2Proof.Machine.execRenderT40 s
  | .renderT80 => Sys2Proof.Machine.execRenderT80 s
  | .renderG320 => Sys2Proof.Machine.execRenderG320 s
  | .renderG320M5 => Sys2Proof.Machine.execRenderG320M5 s
  | .renderG640 => Sys2Proof.Machine.execRenderG640 s
  | .renderUnsupported m => Sys2Proof.Machine.execRenderUnsupported m s
  | .setmode0 => Sys2Proof.Machine.execSetmode0 s
  | .setmode1 => Sys2Proof.Machine.execSetmode1 s
  | .setmode4 => Sys2Proof.Machine.execSetmode4 s
  | .setmode5 => Sys2Proof.Machine.execSetmode5 s
  | .setmode6 => Sys2Proof.Machine.execSetmode6 s
  | .poke addr val => Sys2Proof.Machine.execPoke addr val s
  | .peek addr => Sys2Proof.Machine.execPeek addr s
  | .portOut port val => Sys2Proof.Machine.execPortOut port val s
  | .portIn port => Sys2Proof.Machine.execPortIn port s
  | .setmode n => Sys2Proof.Machine.execSetmode n s
  | .blink b => Sys2Proof.Machine.execBlink b s
  | .render img => Sys2Proof.Machine.execRender img s

end Sys2Proof.Machine
end

