-- ==== Sys2Proof/Machine/Turns.lean ====
section
/-! DEFINITION. Fetching the next operation, from the host's queue or from `mode_l`, and whose turn it is. -/

namespace Sys2Proof.Machine

open Sys2Proof

/-- Decode a word and run the operation. -/
def runWord (w : OpWord) (s : State) : Host.Outcome State Fault Refusal :=
  match decode w with
  | .ok i => exec i s
  | .error why => .refused (.undecoded why)

/-- One move of the host (R230). A `MODE8` word is no operation of the host's: only the dispatcher enters a routine (R223,
U3). -/
def hostMove (m : HostMove) (s : State) : Host.Outcome State Fault Refusal :=
  match m with
  | .op (.mode8 _) => .refused .notDispatched
  | .op (.hostop tag operands) => runWord (.hostop tag operands) s
  | .op (.setmodeArg8 n) => runWord (.setmodeArg8 n) s
  | .keyWrite v => hostKeyWrite v s
  | .keyRead => hostKeyRead s
  | .imageWrite i k v => hostImageWrite i k v s
  | .imageRead i k => hostImageRead i k s
  | .fieldsWrite i w h a => hostFieldsWrite i w h a s
  | .fieldsRead i => hostFieldsRead i s

/-- The host's turn: it makes the next move of its queue (R70, R105); with none left nothing happens (R225, R211). -/
def hostTurn (s : State) : Host.Outcome State Fault Refusal :=
  match s.queue with
  | [] => .next s
  | m :: rest => hostMove m { s with queue := rest }

/-- The renderer's turn: the dispatcher selects the operation of the first request by its `mode_l` alone (R92, R121). -/
def rendererTurn (s : State) : Host.Outcome State Fault Refusal :=
  match s.requests with
  | [] => .next s
  | q :: _ => runWord (.mode8 q.latches.mode) s

/-- A host step during a request (R73): afterwards what `memory` holds may be seen by the frame. -/
def hostTurnDuring (s : State) : Host.Outcome State Fault Refusal :=
  match hostTurn s with
  | .next t => .next t.noteSeen
  | .fault why => .fault why
  | .refused why => .refused why

/-- One move while a request is in progress, by the schedule; an empty schedule gives the renderer its turn at once, the
atomic model (R72, R73; log 5). -/
def requestTurn (s : State) : Host.Outcome State Fault Refusal :=
  match s.schedule with
  | [] => rendererTurn s
  | .renderer i :: rest => rendererTurn (State.bringForward { s with schedule := rest } i)
  | .sample i l :: rest => .next (State.sampleLatch { s with schedule := rest } i l)
  | .host :: rest => hostTurnDuring { s with schedule := rest }

/-- One move of the block: the host's with no request in progress, else by the schedule. -/
def turn (s : State) : Host.Outcome State Fault Refusal :=
  match s.requests with
  | [] => hostTurn s
  | _ :: _ => requestTurn s

/-- Put a word where the next move fetches: a `MODE8` word in `mode_l` of a request in progress on image 0, any other at
the head of the host's queue with no request in progress (log 3). -/
def State.placeWord (s : State) : OpWord → State
  | .mode8 m =>
    { s with requests := [⟨0, { s.sampled with mode := m }, ⟨0, 0⟩, [s.mem]⟩], schedule := [] }
  | .hostop tag operands => { s with requests := [], queue := .op (.hostop tag operands) :: s.queue }
  | .setmodeArg8 n => { s with requests := [], queue := .op (.setmodeArg8 n) :: s.queue }

end Sys2Proof.Machine
end

