-- ==== Sys2Proof/Machine/Step.lean ====
section
/-! DEFINITION. One step, and where the step fetches. -/

namespace Sys2Proof.Machine

open Sys2Proof

/-- One step of the block (R211): one move of the host or of the renderer. -/
def step (s : State) : Host.Outcome State Fault Refusal := turn s

/-- The state with a word of the opcode table placed where the next step fetches (logs 2 and 3). -/
def State.withFetchWord (s : State) (nbits w : Nat) : State :=
  match tableWord nbits w with
  | some word => s.placeWord word
  | none => s

end Sys2Proof.Machine
end

