-- ==== Sys2Proof/Safety.lean ====
section
/-! DEFINITION. What counts as a sound state and a correct frame: the words the statements use. -/

namespace Sys2Proof.Safety

open Sys2Proof Sys2Proof.Machine

/-- The routine each `MODE8` operation with a routine runs, with the mode that selects it (R92, R131). -/
def routineOf (l : Latches) (t : Tables) : Instr → Option (Byte × Routine)
  | .renderT40 => some (Config.modeT40, textRoutine Config.columnsT40 l t)
  | .renderT80 => some (Config.modeT80, textRoutine Config.columnsT80 l t)
  | .renderG320 => some (Config.modeG320, g320 l t)
  | .renderG320M5 => some (Config.modeG320M5, g320m5 l t)
  | .renderG640 => some (Config.modeG640, g640 l t)
  | .renderUnsupported _ => none
  | .setmode0 => none
  | .setmode1 => none
  | .setmode4 => none
  | .setmode5 => none
  | .setmode6 => none
  | .poke _ _ => none
  | .peek _ => none
  | .portOut _ _ => none
  | .portIn _ => none
  | .setmode _ => none
  | .blink _ => none
  | .render _ => none

/-- The set-mode operations, with their argument (R93, R206). -/
def setmodeArgument : Instr → Option Byte
  | .setmode0 => some 0
  | .setmode1 => some 1
  | .setmode4 => some 4
  | .setmode5 => some 5
  | .setmode6 => some 6
  | .setmode n => some n
  | .renderT40 => none
  | .renderT80 => none
  | .renderG320 => none
  | .renderG320M5 => none
  | .renderG640 => none
  | .renderUnsupported _ => none
  | .poke _ _ => none
  | .peek _ => none
  | .portOut _ _ => none
  | .portIn _ => none
  | .blink _ => none
  | .render _ => none

/-- Image `img` can be rendered into: the host owns it and it holds `IMG_CAP` bytes (R35, R210). -/
def HasTarget (s : State) (i : Nat) (img : Image) : Prop :=
  s.images[i]? = some img ∧ Config.imgCap ≤ img.capacity

/-- The request `q` on the image `img` is the one the renderer works on, at its first pixel (R33), and its `mode_l` is
`m`. -/
def InProgress (s : State) (q : Request) (img : Image) (m : Byte) : Prop :=
  s.requests.head? = some q ∧ q.raster = ⟨0, 0⟩ ∧ HasTarget s q.img img ∧ q.latches.mode = m

/-- No host step has changed `memory` since the request started (R72): `memory` is all the request has seen. -/
def Undisturbed (s : State) (q : Request) : Prop := q.seen = [s.mem]

/-- `after` is `before` with a frame of `w × h` pixels drawn into it: dimensions, the pixel at every position, and every
byte after the frame as it was (R123, R133, R34). -/
def FrameDrawn (before after : Image) (w h : Nat) (pix : Nat → Nat → RGB) : Prop :=
  after.width = w ∧ after.height = h ∧
    (∀ x y, x < w → y < h → after.pixel x y = pix x y) ∧
    (∀ k, 3 * (w * h) ≤ k → after.byte k = before.byte k) ∧
    after.capacity = before.capacity

/-- `t` is `s` after its first request `q` has ended with result `r` and image `img` in place (R120, R230, R233): nothing
else of the block, of the other requests or of the other images has changed. -/
def RequestEnded (s t : State) (q : Request) (img : Image) (r : Result) : Prop :=
  t.images = s.images.set q.img img ∧ t.reply = .result r ∧ t.requests = s.requests.tail ∧
    t.mem = s.mem ∧ t.ports = s.ports ∧ t.mode = s.mode ∧ t.blink = s.blink ∧ t.keyLatch = s.keyLatch ∧
    t.tables = s.tables ∧ t.queue = s.queue ∧ t.schedule = s.schedule

/-- The tables meet what the spec fixes of the parameters (R6, R40, R44): entry 0 of `PAL16` is black, entry 4 is
(170,0,0), the gray set of mode 5 is three gray levels in rising order, `MC_GRAY_DEFAULT` has bit 2 set. -/
def TablesSound (t : Tables) : Prop :=
  paletteAt t.pal16 0 = RGB.black ∧ paletteAt t.pal16 4 = ⟨170, 0, 0⟩ ∧
    (∃ low medium white : Nat, low < medium ∧ medium < white ∧ white < 256 ∧
      t.m5Gray = ⟨grayLevel low, grayLevel medium, grayLevel white⟩) ∧
    bit t.mcGrayDefault 2 = true

/-- What every step keeps: canonical memory and ports inside their spaces (R60), sound tables (R46), images no larger
than their capacity (R35), no two requests on one image (R233), and every request in progress at its first pixel (R33),
naming an image it may draw into (R35), and having seen what `memory` holds now (R73(b)). -/
structure Inv (s : State) : Prop where
  /-- `memory` is canonical. -/
  memWf : s.mem.wf
  /-- `memory` has `MEM_SIZE` bytes (R21). -/
  memInside : s.mem.inside Config.memSize
  /-- `ports` is canonical. -/
  portsWf : s.ports.wf
  /-- `ports` has `PORT_COUNT` entries (R22). -/
  portsInside : s.ports.inside Config.portCount
  /-- The parameters meet the spec's constraints. -/
  tables : TablesSound s.tables
  /-- No image holds more bytes than its capacity (R35). -/
  images : ∀ img ∈ s.images, img.drawn.length ≤ img.capacity
  /-- No two requests are on one image. -/
  distinct : (s.requests.map Request.img).Nodup
  /-- The requests in progress. -/
  requests : ∀ q ∈ s.requests,
    q.raster = ⟨0, 0⟩ ∧ q.seen.head? = some s.mem ∧ (∃ img, HasTarget s q.img img) ∧
      ∀ m ∈ q.seen, m.wf ∧ m.inside Config.memSize

/-- `MODE`, and `mode_l` of every request in progress, hold a number that has a routine (R25). A launch state may hold
another (R211, C5). -/
def ModeSupported (s : State) : Prop :=
  Config.supportedMode s.mode = true ∧ ∀ q ∈ s.requests, Config.supportedMode q.latches.mode = true

end Sys2Proof.Safety
end

