-- ==== Sys2Proof/Certificates/Slice0/Obligations.lean ====
section
/-! DEFINITION. The statements for the provers, from the numbered rules of the spec. -/

open Sys2Proof Sys2Proof.Machine Sys2Proof.Safety

/-! ## Encoding -/

/-- Decode and encode agree on every well-formed operation of every format (R92, R93, R102). The layout of a word's
operand fields is the model's choice (log 1). -/
def Obligations.DecodeEncodeRoundTrip : Prop :=
  ∀ i : Instr, i.wellFormed = true → decode (encode i) = .ok i

/-- Every word that decodes is the word of its operation: no bit and no operand field is dropped (log 1). -/
def Obligations.EncodeDecodeRoundTrip : Prop :=
  ∀ (w : OpWord) (i : Instr), decode w = .ok i → encode i = w

/-- Words written out from R92, R93 and R102 decode to the operations they stand for. That 0 is `T40` and
1 is `T80` is the spec's decision D11 (log 17). -/
def Obligations.SpecWordsDecode : Prop :=
  decode (.mode8 0x00) = .ok .renderT40 ∧ decode (.mode8 0x01) = .ok .renderT80 ∧
  decode (.mode8 0x04) = .ok .renderG320 ∧ decode (.mode8 0x05) = .ok .renderG320M5 ∧
  decode (.mode8 0x06) = .ok .renderG640 ∧ decode (.mode8 0x03) = .ok (.renderUnsupported 0x03) ∧
  decode (.mode8 0xFF) = .ok (.renderUnsupported 0xFF) ∧
  decode (.setmodeArg8 0x05) = .ok .setmode5 ∧
  decode (.hostop 0 [0xB8000, 0x1B]) = .ok (.poke 0xB8000 0x1B) ∧
  decode (.hostop 1 [0xB8000]) = .ok (.peek 0xB8000) ∧
  decode (.hostop 2 [0x3D9, 0x21]) = .ok (.portOut 0x3D9 0x21) ∧
  decode (.hostop 3 [0x3D9]) = .ok (.portIn 0x3D9) ∧
  decode (.hostop 4 [0x04]) = .ok (.setmode 0x04) ∧
  decode (.hostop 5 [1]) = .ok (.blink 1)

/-- The operation map (R92): each of the 256 values of `mode_l` matches exactly one of the twelve rows, the five supported
values select their routine, and every other value selects `RENDER.UNSUPPORTED`. That 0 is `T40` and 1 is
`T80` is the spec's decision D11 (log 17). -/
def Obligations.ModeRowsPartition : Prop :=
  modeRows.length = 12 ∧ ∀ m : Byte,
    (modeRows.filter fun row => row.matches m).length = 1 ∧
    decodeMode8 m = .ok
      (if m = 0 then .renderT40 else if m = 1 then .renderT80 else if m = 4 then .renderG320
       else if m = 5 then .renderG320M5 else if m = 6 then .renderG640 else .renderUnsupported m)

/-- The set-mode argument (R93): 0, 1, 4, 5, 6 are the five set-mode operations; every other argument is refused, as a
word and as the operand of the host transaction. -/
def Obligations.SetmodeArguments : Prop :=
  (decode (.setmodeArg8 0) = .ok .setmode0 ∧ decode (.setmodeArg8 1) = .ok .setmode1 ∧
    decode (.setmodeArg8 4) = .ok .setmode4 ∧ decode (.setmodeArg8 5) = .ok .setmode5 ∧
    decode (.setmodeArg8 6) = .ok .setmode6) ∧
  ∀ n : Byte, n ≠ 0 → n ≠ 1 → n ≠ 4 → n ≠ 5 → n ≠ 6 →
    decode (.setmodeArg8 n) = .error .setmodeArgument ∧
    ∀ s : State, exec (.setmode n) s = .refused .setmodeArgument

/-- Tag 7 is reserved and refused (R102, R103), and no byte operand is wider than a byte (R66). -/
def Obligations.ReservedTagAndWideOperandsRefused : Prop :=
  (∀ operands, decode (.hostop 7 operands) = .error .reservedTag) ∧
  ∀ addr val : Nat, 256 ≤ val →
    decode (.hostop 0 [addr, val]) = .error .operandTooWide ∧
    decode (.hostop 2 [addr, val]) = .error .operandTooWide ∧
    decode (.hostop 4 [val]) = .error .operandTooWide

/-! ## The step -/

/-- With no request in progress a step takes the next operation off the host's queue and runs it (R70, R105; the queue is
the model's, log 3); a word that does not decode is refused by name (R93, R103), and so is a `MODE8` word, which only the
dispatcher may run (R223). -/
def Obligations.StepRunsHostOperation : Prop :=
  ∀ (s : State) (w : OpWord) (rest : List HostMove),
    s.requests = [] → s.queue = .op w :: rest →
    ((∀ m, w ≠ .mode8 m) →
      (∀ i, decode w = .ok i → step s = exec i { s with queue := rest }) ∧
      (∀ why, decode w = .error why → step s = .refused (.undecoded why))) ∧
    (∀ m, w = .mode8 m → step s = .refused .notDispatched)

/-- With requests in progress a step of the renderer runs the operation that the `mode_l` of the request it turns to alone
selects (R92, R121): the first request with an empty schedule, else the one the schedule names (the schedule is the
model's, log 5). -/
def Obligations.StepRunsDispatchedOperation : Prop :=
  ∀ (s : State) (q : Request) (i : Instr), decode (.mode8 q.latches.mode) = .ok i →
    (s.requests.head? = some q → s.schedule = [] → step s = exec i s) ∧
    (∀ k turns, s.schedule = .renderer k :: turns → (s.bringForward k).requests.head? = some q →
      step s = exec i (State.bringForward { s with schedule := turns } k))

/-- With a request in progress and the host scheduled, a step runs the host's next operation, a RENDER of another image
among them, and the requests may see the memory it leaves (R73, R210; log 5). -/
def Obligations.StepRunsHostOperationDuringRequest : Prop :=
  ∀ (s t : State) (turns : List Turn) (w : OpWord) (rest : List HostMove) (i : Instr),
    s.requests ≠ [] → s.schedule = .host :: turns → s.queue = .op w :: rest →
    decode w = .ok i → (∀ m, w ≠ .mode8 m) →
    exec i { s with schedule := turns, queue := rest } = .next t → step s = .next t.noteSeen

/-- With no request in progress and no operation left a step changes nothing (R225, R211). -/
def Obligations.IdleStepChangesNothing : Prop :=
  ∀ s : State, s.requests = [] → s.queue = [] → step s = .next s

/-! ## Memory -/

/-- Zeroing the window by one operation is the spec's loop of byte writes (R206): the same canonical memory. -/
def Obligations.ZeroingIsTheWriteLoop : Prop :=
  ∀ (m : Memory) (base size : Nat), m.wf →
    m.clearRange base size = (List.range size).foldl (fun m o => m.write (base + o) 0) m

/-- Two canonical memories that read alike everywhere are equal. -/
def Obligations.CanonicalMemoriesReadingAlikeAreEqual : Prop :=
  ∀ m n : Memory, m.wf → n.wf → (∀ a, m.read a = n.read a) → m = n

/-! ## Host operations -/

/-- POKE and OUT in range store their byte, change no other byte of their space and nothing else but the reply; out of range
they are refused (R200, R202, R22, R69). -/
def Obligations.PokeAndOutStoreTheirByte : Prop :=
  ∀ (s : State) (a : Nat) (v : Byte),
    (s.mem.wf → a < 0x100000 → ∃ t, exec (.poke a v) s = .next t ∧
      (∀ b, t.mem.read b = if b = a then v else s.mem.read b) ∧ t = { s with mem := t.mem, reply := .none }) ∧
    (0x100000 ≤ a → exec (.poke a v) s = .refused .addressOutOfRange) ∧
    (s.ports.wf → a < 0x10000 → ∃ t, exec (.portOut a v) s = .next t ∧
      (∀ b, t.ports.read b = if b = a then v else s.ports.read b) ∧ t = { s with ports := t.ports, reply := .none }) ∧
    (0x10000 ≤ a → exec (.portOut a v) s = .refused .portOutOfRange)

/-- PEEK and IN return the byte and change nothing else; out of range they are refused (R201, R203, R69). -/
def Obligations.PeekAndInReturnTheByte : Prop :=
  ∀ (s : State) (a : Nat),
    (a < 0x100000 → exec (.peek a) s = .next { s with reply := .byte (s.mem.read a) }) ∧
    (0x100000 ≤ a → exec (.peek a) s = .refused .addressOutOfRange) ∧
    (a < 0x10000 → exec (.portIn a) s = .next { s with reply := .byte (s.ports.read a) }) ∧
    (0x10000 ≤ a → exec (.portIn a) s = .refused .portOutOfRange)

/-- A PEEK right after a POKE to the same address returns the written byte, and an IN after an OUT (R70, R21, R22;
the queue is the model's, log 3). -/
def Obligations.LoadAfterStoreReturnsTheByte : Prop :=
  ∀ (s : State) (a b : Nat) (v : Byte) (rest : List HostMove), s.requests = [] → s.mem.wf → s.ports.wf →
    (a < 0x100000 → b < 0x100000 → s.queue = .op (encode (.poke a v)) :: .op (encode (.peek b)) :: rest →
      ∃ t u, step s = .next t ∧ step t = .next u ∧
        u.reply = .byte (if b = a then v else s.mem.read b) ∧ u.queue = rest) ∧
    (a < 0x10000 → b < 0x10000 → s.queue = .op (encode (.portOut a v)) :: .op (encode (.portIn b)) :: rest →
      ∃ t u, step s = .next t ∧ step t = .next u ∧
        u.reply = .byte (if b = a then v else s.ports.read b) ∧ u.queue = rest)

/-- BLINK writes the blink phase and nothing else but the reply (R208). -/
def Obligations.BlinkSetsThePhase : Prop :=
  ∀ (s : State) (b : BitVec 1), exec (.blink b) s = .next { s with blink := b, reply := .none }

/-- The set-mode command (R206), as the host transaction and as each of the five operations known by their argument:
Color Select becomes 0, all 16,384 bytes of video RAM become 0, `MODE` becomes the argument, and for 0 and 5 Mode Control
becomes `MC_GRAY_DEFAULT`; every other byte of memory and ports, and everything else but the reply, is unchanged. -/
def Obligations.SetmodeEffects : Prop :=
  ∀ (s : State) (i : Instr) (n : Byte),
    s.mem.wf → s.ports.wf → setmodeArgument i = some n → n = 0 ∨ n = 1 ∨ n = 4 ∨ n = 5 ∨ n = 6 →
    ∃ t, exec i s = .next t ∧ t.mode = n ∧
      (∀ a, t.mem.read a = if 0xB8000 ≤ a ∧ a < 0xB8000 + 16384 then 0 else s.mem.read a) ∧
      (∀ p, t.ports.read p =
        if p = 0x3D9 then 0
        else if p = 0x3D8 ∧ (n = 0 ∨ n = 5) then s.tables.mcGrayDefault else s.ports.read p) ∧
      t = { s with mem := t.mem, ports := t.ports, mode := n, reply := .none }

/-! ## The render request -/

/-- RENDER with an image that no request in progress names starts a request beside those on other images (R210, R233): its
four latches take `MODE`, Mode Control, Color Select and `BLINK`, its raster position is the first pixel, and nothing else
but the reply changes (R120 up to its dispatch, R30; that the dispatch is a later step is the model's, log 4). -/
def Obligations.RenderSamplesTheLatches : Prop :=
  ∀ (s : State) (i : Nat) (img : Image),
    s.images[i]? = some img → 467712 ≤ img.capacity → (∀ q ∈ s.requests, q.img ≠ i) →
    exec (.render (some i)) s = .next
      { s with
        requests := s.requests ++ [⟨i, ⟨s.mode, s.ports.read 0x3D8, s.ports.read 0x3D9, s.blink⟩, ⟨0, 0⟩, [s.mem]⟩]
        reply := .none }

/-- RENDER with no image returns `NoTarget` in every state, whatever `MODE` holds, and changes nothing (R222, R226). -/
def Obligations.RenderNoneIsNoTarget : Prop :=
  ∀ s : State, exec (.render none) s = .next { s with reply := .result .noTarget }

/-- RENDER is refused for an image smaller than `IMG_CAP` (R35), for an image the host does not own (log 21), and for an
image that a request in progress is on (R233). -/
def Obligations.RenderRefusals : Prop :=
  ∀ (s : State) (i : Nat),
    (∀ img, s.images[i]? = some img → (∀ q ∈ s.requests, q.img ≠ i) → img.capacity < 467712 →
      exec (.render (some i)) s = .refused .imageTooSmall) ∧
    (s.images[i]? = none → exec (.render (some i)) s = .refused .noSuchImage) ∧
    (∀ img q, s.images[i]? = some img → q ∈ s.requests → q.img = i →
      exec (.render (some i)) s = .refused .requestInProgress)

/-- A routine is entered through the dispatcher only (R223): without a request in progress, or when the `mode_l` of the
request the renderer works on selects another operation, it is refused. -/
def Obligations.RoutinesNeedTheDispatcher : Prop :=
  ∀ (s : State) (l : Latches) (i : Instr) (m : Byte) (r : Routine), routineOf l s.tables i = some (m, r) →
    s.requests = [] ∨ (∃ q, s.requests.head? = some q ∧ q.latches.mode ≠ m) → exec i s = .refused .notDispatched

/-- The unsupported-mode condition (R122, R221, R227): with `mode_l` a value without a routine, the request ends with
`Unsupported`, the image's width and height become 0, no byte of `pixels` and no `aspectRatio` changes, and nothing else of
the block, of another request or of another image changes. -/
def Obligations.UnsupportedModeZeroesTheDimensions : Prop :=
  ∀ (s : State) (q : Request) (img : Image) (m : Byte), s.requests.head? = some q → HasTarget s q.img img →
    q.latches.mode = m → m ≠ 0 → m ≠ 1 → m ≠ 4 → m ≠ 5 → m ≠ 6 →
    ∃ t after, exec (.renderUnsupported m) s = .next t ∧ RequestEnded s t q after .unsupported ∧
      after.width = 0 ∧ after.height = 0 ∧ (∀ k, after.byte k = img.byte k) ∧
      after.aspectRatio = img.aspectRatio ∧ after.capacity = img.capacity

/-- `RENDER.G320` (R150, R152): with `memory` unchanged since the request started, the image holds the 352×232 frame of R150:
the pixel value of each active position resolved through Color Select, the border the colour of value 0. -/
def Obligations.G320DrawsItsFrame : Prop :=
  ∀ (s : State) (q : Request) (img : Image), InProgress s q img 4 → Undisturbed s q →
    ∃ t after, exec .renderG320 s = .next t ∧ RequestEnded s t q after .ok ∧
      FrameDrawn img after 352 232 fun x y =>
        let cs := q.latches.cs.toNat
        if 16 ≤ x ∧ x < 336 ∧ 16 ≤ y ∧ y < 216 then
          let row := y - 16
          let col := x - 16
          let b := (s.mem.read (0xB8000 + (row % 2 * 8192 + row / 2 * 80 + col / 4))).toNat
          let v := b / 2 ^ ((3 - col % 4) * 2) % 4
          paletteAt s.tables.pal16 (if v = 0 then cs % 16 else 2 * v + cs / 32 % 2 + 8 * (cs / 16 % 2))
        else paletteAt s.tables.pal16 (cs % 16)

/-- `RENDER.G320M5` (R160, R162): with `memory` unchanged since the request started, the image holds the 352×232 frame of R160:
colour 0 and the border gray-converted under Mode Control bit 2, values 1 to 3 from the fixed set that bit selects. -/
def Obligations.G320M5DrawsItsFrame : Prop :=
  ∀ (s : State) (q : Request) (img : Image), InProgress s q img 5 → Undisturbed s q →
    ∃ t after, exec .renderG320M5 s = .next t ∧ RequestEnded s t q after .ok ∧
      FrameDrawn img after 352 232 fun x y =>
        let bw := q.latches.mc.toNat / 4 % 2 = 1
        let set := if bw then s.tables.m5Gray else s.tables.m5Color
        let colour := paletteAt s.tables.pal16 (q.latches.cs.toNat % 16)
        let c0 := if bw then gray colour else colour
        if 16 ≤ x ∧ x < 336 ∧ 16 ≤ y ∧ y < 216 then
          let row := y - 16
          let col := x - 16
          let b := (s.mem.read (0xB8000 + (row % 2 * 8192 + row / 2 * 80 + col / 4))).toNat
          let v := b / 2 ^ ((3 - col % 4) * 2) % 4
          if v = 0 then c0 else if v = 1 then set.entry1 else if v = 2 then set.entry2 else set.entry3
        else c0

/-- `RENDER.G640` (R170, R171, R172): with `memory` unchanged since the request started, the image holds the 672×232 frame of
R170: a set bit and the border show the Color Select colour, a clear bit `PAL16[0]`. -/
def Obligations.G640DrawsItsFrame : Prop :=
  ∀ (s : State) (q : Request) (img : Image), InProgress s q img 6 → Undisturbed s q →
    ∃ t after, exec .renderG640 s = .next t ∧ RequestEnded s t q after .ok ∧
      FrameDrawn img after 672 232 fun x y =>
        let ink := paletteAt s.tables.pal16 (q.latches.cs.toNat % 16)
        if 16 ≤ x ∧ x < 656 ∧ 16 ≤ y ∧ y < 216 then
          let row := y - 16
          let col := x - 16
          let b := (s.mem.read (0xB8000 + (row % 2 * 8192 + row / 2 * 80 + col / 8))).toNat
          if b / 2 ^ (7 - col % 8) % 2 = 1 then ink else paletteAt s.tables.pal16 0
        else ink

/-- `RENDER.T40` and `RENDER.T80` (R180 to R186): with `memory` unchanged since the request started, the image holds the text
frame of 40 or 80 columns: the glyph bit chooses between the attribute's two colours, exchanged while the cell blinks, in
the colour or the gray palette; the border is the Color Select entry of the same palette. Mode 0 as 40 columns (log 17), the
exchange of the colours (log 18) and the gray palette by luma (log 19) are readings the spec marks as its own. -/
def Obligations.TextRoutinesDrawTheirFrame : Prop :=
  ∀ (s : State) (q : Request) (img : Image) (i : Instr) (m : Byte) (columns : Nat),
    (i, m, columns) ∈ [(Instr.renderT40, (0 : Byte), 40), (Instr.renderT80, 1, 80)] →
    InProgress s q img m → Undisturbed s q →
    ∃ t after, exec i s = .next t ∧ RequestEnded s t q after .ok ∧
      FrameDrawn img after (columns * 8 + 32) 232 fun x y =>
        let mc := q.latches.mc.toNat
        let pal := fun k =>
          if mc / 4 % 2 = 1 then gray (paletteAt s.tables.pal16 k) else paletteAt s.tables.pal16 k
        if 16 ≤ x ∧ x < 16 + columns * 8 ∧ 16 ≤ y ∧ y < 216 then
          let row := y - 16
          let col := x - 16
          let o := (row / 8 * columns + col / 8) * 2
          let code := (s.mem.read (0xB8000 + o)).toNat
          let attr := (s.mem.read (0xB8000 + (o + 1))).toNat
          let fg := attr % 16
          let bg := if mc / 32 % 2 = 1 then attr / 16 % 8 else attr / 16
          let exchanged := mc / 32 % 2 = 1 ∧ q.latches.blink = 1 ∧ attr / 128 = 1
          let shape := (s.tables.fontAt (code * 8 + row % 8)).toNat / 2 ^ (7 - col % 8) % 2
          if shape = 1 then pal (if exchanged then bg else fg) else pal (if exchanged then fg else bg)
        else pal (q.latches.cs.toNat % 16)

/-- Every routine completes on every request the dispatcher gives it, host steps in between or not (R124, R133, R73):
each pixel is the routine's colour of VRAM bytes it sees, the bytes of the image after the frame stay, and nothing else
of the block changes. The moment each read sees is a free value (log 5). -/
def Obligations.EveryRoutineCompletesItsFrame : Prop :=
  ∀ (s : State) (q : Request) (img : Image) (i : Instr) (m : Byte) (r : Routine),
    routineOf q.latches s.tables i = some (m, r) → InProgress s q img m →
    ∃ t after, exec i s = .next t ∧ RequestEnded s t q after .ok ∧
      FrameDrawn img after r.width r.height fun x y => r.pixel (s.vramSeen q x y) x y

/-- The whole render request with no host step in it (R120, R72): two steps from RENDER at the head of the queue, the
image holds the frame of the routine `MODE` selects, computed from the control values and the video RAM at the start, with
result `Ok`; or, for a mode without a routine, zero dimensions with `Unsupported`. Nothing else changes but the taken
operation and the counter of free values (the two steps and the queue are the model's, logs 3 and 4). -/
def Obligations.RenderRequestIsOneFrame : Prop :=
  ∀ (s : State) (i : Nat) (img : Image) (rest : List HostMove),
    s.requests = [] → s.schedule = [] → s.queue = .op (encode (.render (some i))) :: rest → HasTarget s i img →
    ∃ u t after result, step s = .next u ∧ step u = .next t ∧
      t = { s with
        images := s.images.set i after, reply := .result result, queue := rest, draws := t.draws } ∧
      (Config.supportedMode s.mode = true → result = .ok ∧
        ∃ op r, routineOf s.sampled s.tables op = some (s.mode, r) ∧
          FrameDrawn img after r.width r.height fun x y => r.pixel s.mem.vram x y) ∧
      (Config.supportedMode s.mode = false → result = .unsupported ∧ after = img.withSize 0 0)

/-- Two requests at once (R233, R210): with RENDER of two images i and j under a mode with a routine, j started while i is
in progress and finished before it, each image holds its frame as if it were the only one, and nothing else changes but the
taken operations, the used turns and the counter of free values (queue, steps and schedule are the model's, logs 3 to 5). -/
def Obligations.RequestsOnDifferentImagesDoNotInterfere : Prop :=
  ∀ (s : State) (i j : Nat) (imgI imgJ : Image) (rest : List HostMove),
    i ≠ j → s.requests = [] → s.schedule = [.host, .renderer j] →
    s.queue = .op (encode (.render (some i))) :: .op (encode (.render (some j))) :: rest →
    HasTarget s i imgI → HasTarget s j imgJ → Config.supportedMode s.mode = true →
    ∃ u v w t afterI afterJ op r, step s = .next u ∧ step u = .next v ∧ step v = .next w ∧ step w = .next t ∧
      u.requests.map Request.img = [i] ∧ v.requests.map Request.img = [i, j] ∧
      w.requests.map Request.img = [i] ∧ v.reply = .none ∧ w.reply = .result .ok ∧
      t = { s with
        images := (s.images.set j afterJ).set i afterI, reply := .result .ok, queue := rest, schedule := []
        draws := t.draws } ∧
      routineOf s.sampled s.tables op = some (s.mode, r) ∧
      FrameDrawn imgI afterI r.width r.height (fun x y => r.pixel s.mem.vram x y) ∧
      FrameDrawn imgJ afterJ r.width r.height (fun x y => r.pixel s.mem.vram x y)

/-- The first frame (R251): with memory, ports, `MODE` and `BLINK` zero, a render request gives 352×232 pixels, all black,
whatever the glyph table holds. The queue and the two steps are the model's (logs 3 and 4), and that `MODE` 0 is the
40-column routine, 352 pixels wide, is the decision D11 that R251 names (log 17). -/
def Obligations.FirstFrameIsBlack : Prop :=
  ∀ (s : State) (i : Nat) (img : Image) (rest : List HostMove),
    s.mem = [] → s.ports = [] → s.mode = 0 → s.blink = 0 → paletteAt s.tables.pal16 0 = ⟨0, 0, 0⟩ →
    s.requests = [] → s.schedule = [] → s.queue = .op (encode (.render (some i))) :: rest → HasTarget s i img →
    ∃ u t after, step s = .next u ∧ step u = .next t ∧ t.images = s.images.set i after ∧
      t.reply = .result .ok ∧ after.width = 352 ∧ after.height = 232 ∧
      ∀ x y, x < 352 → y < 232 → after.pixel x y = ⟨0, 0, 0⟩

/-- Mode switching leaves no stale pixel (R256, R153(a), R173(a)): SETMODE 4 or 6 and then RENDER give a frame that is
`PAL16[0]` everywhere, border included, whatever memory and ports held before (the three steps: logs 3 and 4). -/
def Obligations.SetmodeThenRenderIsBlank : Prop :=
  ∀ (s : State) (n : Byte) (i : Nat) (img : Image) (rest : List HostMove),
    n = 4 ∨ n = 6 → s.ports.wf → s.requests = [] → s.schedule = [] →
    s.queue = .op (encode (.setmode n)) :: .op (encode (.render (some i))) :: rest → HasTarget s i img →
    ∃ u v t after, step s = .next u ∧ step u = .next v ∧ step v = .next t ∧
      t.images = s.images.set i after ∧ t.reply = .result .ok ∧ t.mode = n ∧ t.queue = rest ∧
      after.width = (if n = 4 then 352 else 672) ∧ after.height = 232 ∧
      ∀ x y, x < after.width → y < 232 → after.pixel x y = paletteAt s.tables.pal16 0

/-! ## Operand assembly and colours -/

/-- The luma function (R13): the exact quotient, always a byte, replicated by `gray`; 50 for the source's (170,0,0). That the
arithmetic is exact is the spec's decision D13 (log 19). -/
def Obligations.LumaIsExactAndAByte : Prop :=
  ∀ c : RGB,
    luma c = (299 * c.r.toNat + 587 * c.g.toNat + 114 * c.b.toNat) / 1000 ∧ luma c ≤ 255 ∧
    (gray c).r.toNat = luma c ∧ (gray c).g.toNat = luma c ∧ (gray c).b.toNat = luma c ∧
    luma ⟨170, 0, 0⟩ = 50 ∧ luma ⟨255, 255, 255⟩ = 255

/-- Converting a gray colour to gray changes nothing, and converting twice is converting once (R163(b)). -/
def Obligations.GrayOfGrayIsItself : Prop :=
  (∀ v : Byte, gray ⟨v, v, v⟩ = ⟨v, v, v⟩) ∧ ∀ c : RGB, gray (gray c) = gray c

/-- The sixteen gray levels of the palette the spec supplies (R41 with R40's table; log 15), all different. -/
def Obligations.DefaultGrayLevels : Prop :=
  (pal16Default.toList.map luma =
    [0, 19, 99, 119, 50, 70, 100, 170, 85, 104, 184, 204, 135, 155, 235, 255]) ∧
  (pal16Default.toList.map luma).Nodup ∧ pal16Default.toList.Nodup

/-- Format `PIX2` (R94): the four pixels are bits 7:6, 5:4, 3:2, 1:0 by column mod 4, and together they are the byte. -/
def Obligations.Pix2HoldsFourPixels : Prop :=
  ∀ (b : Byte) (col : Nat),
    pix2 b col = b.toNat / 2 ^ ((3 - col % 4) * 2) % 4 ∧ pix2 b col < 4 ∧
    (col % 4 = 0 → pix2 b col = field b 7 6) ∧ (col % 4 = 1 → pix2 b col = field b 5 4) ∧
    (col % 4 = 2 → pix2 b col = field b 3 2) ∧ (col % 4 = 3 → pix2 b col = field b 1 0) ∧
    b.toNat = 64 * pix2 b 0 + 16 * pix2 b 1 + 4 * pix2 b 2 + pix2 b 3 ∧
    [0, 1, 2, 3].map (pix2 0x1B) = [0, 1, 2, 3]

/-- Format `PIX1` (R95): the eight pixels are bits 7 down to 0 by column mod 8. -/
def Obligations.Pix1HoldsEightPixels : Prop :=
  ∀ (b : Byte) (col : Nat),
    pix1 b col = b.getLsbD (7 - col % 8) ∧
    (pix1 b col = true ↔ b.toNat / 2 ^ (7 - col % 8) % 2 = 1) ∧
    (pix1 0x81 col = true ↔ col % 8 = 0 ∨ col % 8 = 7)

/-- Bank interleaving (R135 to R137, R63): different bytes of different scanlines have different offsets, even rows lie in
bank 0 and odd rows in bank 1, no offset is past 16,191 or in the unused tail of a bank, and every offset of 0 to 7,999 and
8,192 to 16,191 is a scanline byte. -/
def Obligations.ScanlinesTileBothBanks : Prop :=
  (∀ row k row' k' : Nat, row < 200 → k < 80 → row' < 200 → k' < 80 →
    (goff row k = goff row' k' → row = row' ∧ k = k') ∧
    goff row k ≤ 16191 ∧
    (row % 2 = 0 → goff row k < 8000) ∧ (row % 2 = 1 → 8192 ≤ goff row k)) ∧
  ∀ o : Nat, (∃ row k, row < 200 ∧ k < 80 ∧ goff row k = o) ↔ o < 8000 ∨ 8192 ≤ o ∧ o < 16192

/-- Text cells (R181, R137): the code byte lies at an even offset below 2,000 or 4,000, the last cell at 1,998 or 3,998,
and two display positions have one cell exactly when they share cell row and column. -/
def Obligations.CellAddressing : Prop :=
  ∀ columns row col row' col' : Nat, columns = 40 ∨ columns = 80 →
    row < 200 → row' < 200 → col < columns * 8 → col' < columns * 8 →
    cellOffset columns row col % 2 = 0 ∧ cellOffset columns row col + 1 < columns * 50 ∧
    (cellOffset columns row col = cellOffset columns row' col' ↔ row / 8 = row' / 8 ∧ col / 8 = col' / 8) ∧
    cellOffset columns 199 (columns * 8 - 1) = columns * 50 - 2

/-- The attribute byte (R98, R99, R185): foreground bits 3:0 in both formats; with blink enabled background bits 6:4 and
flag bit 7; with blink disabled background bits 7:4 and no flag. -/
def Obligations.AttributeFormats : Prop :=
  ∀ attr : Byte,
    attrFg attr = attr.toNat % 16 ∧
    attrBg true attr = attr.toNat / 16 % 8 ∧ attrFlag true attr = decide (128 ≤ attr.toNat) ∧
    attrBg false attr = attr.toNat / 16 ∧ attrFlag false attr = false

/-- The colour indices of `G320` (R151): the background index for value 0, else the foreground set of the palette-select
bit raised by 8 under the intensity bit; always 0 to 15, and never dependent on Mode Control. -/
def Obligations.G320ColourIndex : Prop :=
  ∀ (l : Latches) (v : Nat), v < 4 →
    colIdxG320 l 0 = l.cs.toNat % 16 ∧
    (v ≠ 0 → colIdxG320 l v =
      (if l.cs.getLsbD 5 then [3, 5, 7] else [2, 4, 6]).getD (v - 1) 0 + (if l.cs.getLsbD 4 then 8 else 0)) ∧
    (v ≠ 0 → colIdxG320 l v = 2 * v + l.cs.toNat / 32 % 2 + 8 * (l.cs.toNat / 16 % 2)) ∧
    colIdxG320 l v ≤ 15 ∧ ∀ mc, colIdxG320 { l with mc := mc } v = colIdxG320 l v

/-- Every index a routine forms lies inside its table (R139, R151, R182): palette indices below 16, glyph bytes below
2,048. -/
def Obligations.TableIndicesInRange : Prop :=
  ∀ (l : Latches) (v row : Nat) (code attr : Byte) (shape : Bool), v < 4 →
    l.color < 16 ∧ colIdxG320 l v < 16 ∧ textIndex l attr shape < 16 ∧ code.toNat * 8 + row % 8 < 2048

/-- Blink (R186, R187): between phase 0 and phase 1 an active pixel of a text frame is exchanged between the two colours of
its cell when blink is enabled and the cell's flag is set, and is the same otherwise; the border does not change. -/
def Obligations.BlinkExchangesTheCell : Prop :=
  ∀ (l : Latches) (t : Tables) (vram : Nat → Byte) (columns row col : Nat),
    let off := (textRoutine columns { l with blink := 0 } t).active vram row col
    let on := (textRoutine columns { l with blink := 1 } t).active vram row col
    let o := cellOffset columns row col
    let attr := (vram (o + 1)).toNat
    let shape := glyphBit t (vram o) row col
    (textRoutine columns { l with blink := 1 } t).borderCol = (textRoutine columns { l with blink := 0 } t).borderCol ∧
    (¬(l.mc.getLsbD 5 = true ∧ 128 ≤ attr) → on = off) ∧
    (l.mc.getLsbD 5 = true → 128 ≤ attr →
      off = paletteAt (textPalette l t) (if shape then attr % 16 else attr / 16 % 8) ∧
      on = paletteAt (textPalette l t) (if shape then attr / 16 % 8 else attr % 16))

/-- The control bits with no effect (R103, R153(e), R163(c), R173(e), R188(f)): `G320` depends on Color Select bits 5:0
only; `G320M5` on bits 3:0 and Mode Control bit 2; `G640` on bits 3:0; the text routines on bits 3:0, Mode Control bits 2 and
5 and the blink phase. -/
def Obligations.UnusedControlBitsHaveNoEffect : Prop :=
  ∀ (l l' : Latches) (t : Tables),
    (l.cs.toNat % 64 = l'.cs.toNat % 64 → g320 l t = g320 l' t) ∧
    (l.cs.toNat % 16 = l'.cs.toNat % 16 → g640 l t = g640 l' t) ∧
    (l.cs.toNat % 16 = l'.cs.toNat % 16 → l.mc.getLsbD 2 = l'.mc.getLsbD 2 → g320m5 l t = g320m5 l' t) ∧
    (∀ columns, l.cs.toNat % 16 = l'.cs.toNat % 16 → l.mc.getLsbD 2 = l'.mc.getLsbD 2 →
      l.mc.getLsbD 5 = l'.mc.getLsbD 5 → l.blink = l'.blink →
      textRoutine columns l t = textRoutine columns l' t)

/-- VRAM bytes that a routine never reads have no effect (R63): the graphics routines read offsets 0 to 7,999 and 8,192 to
16,191, a text routine its cells only. -/
def Obligations.UnreadVramHasNoEffect : Prop :=
  ∀ (l : Latches) (t : Tables) (v w : Nat → Byte) (x y : Nat),
    ((∀ o, o < 8000 ∨ 8192 ≤ o ∧ o < 16192 → v o = w o) →
      (g320 l t).pixel v x y = (g320 l t).pixel w x y ∧
      (g320m5 l t).pixel v x y = (g320m5 l t).pixel w x y ∧
      (g640 l t).pixel v x y = (g640 l t).pixel w x y) ∧
    (∀ columns, columns = 40 ∨ columns = 80 → (∀ o, o < columns * 50 → v o = w o) →
      (textRoutine columns l t).pixel v x y = (textRoutine columns l t).pixel w x y)

/-- A frame is a function of the latches, the tables and the video RAM (R71, R72): two undisturbed requests of states that
agree on these show the same pixel everywhere, whatever else the states hold. -/
def Obligations.FrameIsAFunctionOfItsInputs : Prop :=
  ∀ (s s' t t' : State) (q q' : Request) (img img' after after' : Image) (i : Instr) (m : Byte) (r : Routine),
    routineOf q.latches s.tables i = some (m, r) →
    InProgress s q img m → Undisturbed s q → InProgress s' q' img' m → Undisturbed s' q' →
    q'.latches = q.latches → s'.tables = s.tables →
    (∀ o, o < 16384 → s'.mem.read (0xB8000 + o) = s.mem.read (0xB8000 + o)) →
    exec i s = .next t → exec i s' = .next t' →
    t.images[q.img]? = some after → t'.images[q'.img]? = some after' →
    after'.width = after.width ∧ after'.height = after.height ∧
      ∀ x y, x < after.width → y < after.height → after'.pixel x y = after.pixel x y

/-- The round trip of the source (R153(b)): with Color Select 0 and the four palette entries in use different, two video
RAMs that show the same `G320` frame hold the same bytes wherever the routine reads. -/
def Obligations.G320FrameDeterminesItsBytes : Prop :=
  ∀ (l : Latches) (t : Tables) (v w : Nat → Byte), l.cs = 0 →
    ([0, 2, 4, 6].map (paletteAt t.pal16)).Nodup →
    (∀ row col, row < 200 → col < 320 → (g320 l t).active v row col = (g320 l t).active w row col) →
    ∀ o, o < 8000 ∨ 8192 ≤ o ∧ o < 16192 → v o = w o

/-! ## Host and renderer together -/

/-- Every VRAM byte that a pixel sees is a value the byte held at a moment the request has seen (R73(b)). -/
def Obligations.TornReadsAreValuesHeld : Prop :=
  ∀ (s : State) (q : Request) (x y o : Nat), q.seen ≠ [] → ∃ m ∈ q.seen, s.vramSeen q x y o = m.vram o

/-- Over a step a request either stays, with its image and raster position, and has seen the memory the step leaves if that
is new; or it is the one a RENDER has just started, on an image that no request named (R73(b), R120). -/
def Obligations.RequestSeesEveryHostStep : Prop :=
  ∀ s t : State, Inv s → step s = .next t → ∀ q' ∈ t.requests,
    (∃ q ∈ s.requests, q'.img = q.img ∧ q'.raster = q.raster ∧
      q'.seen = if t.mem = s.mem then q.seen else t.mem :: q.seen) ∨
    (s.inUse q'.img = false ∧ q' = s.newRequest q'.img)

/-- The latched controls (R255, R138, R30): once the samples are taken, no step changes a latch of a request in progress,
whatever the host writes; a request that starts samples the registers. A late sample (log 6) is the one exception, and
belongs to the start of the request. -/
def Obligations.LatchesHoldDuringRequest : Prop :=
  ∀ s t : State, step s = .next t → (∀ i l rest, s.schedule ≠ .sample i l :: rest) → ∀ q' ∈ t.requests,
    (∃ q ∈ s.requests, q'.img = q.img ∧ q'.latches = q.latches) ∨
    (s.inUse q'.img = false ∧ q'.latches = s.sampled)

/-- A torn start (R73(a), R207): when the host's SETMODE comes between the samples of `cs_l` and `mode_l`, the frame pairs the
new mode with the old Color Select and may still see video RAM that is not yet zeroed. -/
def Obligations.TornStartPairsNewModeWithOldColor : Prop :=
  ∀ (s : State) (q : Request) (n : Byte) (rest : List HostMove),
    s.requests = [q] → s.schedule = [.host, .sample q.img .mode] → s.queue = .op (encode (.setmode n)) :: rest →
    Config.supportedMode n = true →
    ∃ t u, step s = .next t ∧ step t = .next u ∧ u.mem = s.mem.clearRange 0xB8000 16384 ∧
      u.requests = [{ q.note u.mem with latches := { q.latches with mode := n } }] ∧
      u.schedule = [] ∧ u.queue = rest

/-- The renderer's rights (R230, R233): no render operation writes anything but the image of the request it works on, the
requests (their latches and raster positions among them), the reply and the counter of free values; every other image and
every other request stays as it was. -/
def Obligations.RenderOperationsWriteOnlyTheirRequest : Prop :=
  ∀ (i : Instr) (s t : State),
    ((∃ l, (routineOf l s.tables i).isSome = true) ∨ (∃ m, i = .renderUnsupported m) ∨ ∃ img, i = .render img) →
    exec i s = .next t →
    t = { s with images := t.images, requests := t.requests, reply := t.reply, draws := t.draws } ∧
    (∀ j, (∀ q, s.requests.head? = some q → q.img ≠ j) → t.images[j]? = s.images[j]?) ∧
    (t.requests = s.requests ∨ t.requests = s.requests.tail ∨ ∃ q, t.requests = s.requests ++ [q])

/-- No step writes a table (R46), and only the host's own access writes `KEYLATCH` (R29, R230; log 22); its scan code is its
high byte, its ASCII code its low byte (R29). -/
def Obligations.TablesNeverChangeAndOnlyTheHostWritesKeyLatch : Prop :=
  ∀ s t : State, step s = .next t →
    t.tables = s.tables ∧
      (t.keyLatch = s.keyLatch ∨ ∃ v rest, s.queue = .keyWrite v :: rest ∧ t.keyLatch = v) ∧
      t.keyLatch.toNat = 256 * t.keyScan.toNat + t.keyAscii.toNat

/-- Stale video RAM (R256): a step that changes `MODE` leaves all 16,384 bytes of video RAM zero and Color Select zero. -/
def Obligations.ModeChangeZeroesVideoRam : Prop :=
  ∀ s t : State, s.ports.wf → step s = .next t → t.mode ≠ s.mode →
    (∀ o, o < 16384 → t.mem.read (0xB8000 + o) = 0) ∧ t.ports.read 0x3D9 = 0

/-- All or nothing (R123, R230): a step leaves every image alone; or it is the host's write to an image that no request is
on; or it ends a request, touching only the image that request names, with the complete frame of the routine its `mode_l`
selects and `Ok`, or, without a routine, with `Unsupported`, zero dimensions and the pixel bytes as they were. -/
def Obligations.ImagesChangeAllOrNothing : Prop :=
  ∀ s t : State, Inv s → step s = .next t →
    t.images = s.images ∨
    (∃ i rest after, ((∃ k v, s.queue = .imageWrite i k v :: rest) ∨ ∃ w h a, s.queue = .fieldsWrite i w h a :: rest) ∧
      s.inUse i = false ∧ t.images = s.images.set i after) ∨
    ∃ q ∈ s.requests, ∃ before after, s.images[q.img]? = some before ∧
      t.images = s.images.set q.img after ∧ t.inUse q.img = false ∧
      ((t.reply = .result .ok ∧ ∃ op r, routineOf q.latches s.tables op = some (q.latches.mode, r) ∧
          FrameDrawn before after r.width r.height fun x y => r.pixel (s.vramSeen q x y) x y) ∨
       (Config.supportedMode q.latches.mode = false ∧ t.reply = .result .unsupported ∧
          after = before.withSize 0 0))

/-- What the host finds of an image (R209, R76, R258): its pixels within its dimensions when no request on it is in
progress, whatever requests there are on other images; nothing while one on it is, and nothing outside its dimensions, so
nothing once they are zero. -/
def Obligations.HostReadsFinishedImagesOnly : Prop :=
  ∀ (s : State) (i x y : Nat) (img : Image), s.images[i]? = some img →
    ((∀ q ∈ s.requests, q.img ≠ i) → x < img.width → y < img.height → s.readPixel i x y = some (img.pixel x y)) ∧
    (∀ q ∈ s.requests, q.img = i → s.readPixel i x y = none) ∧
    (img.width ≤ x ∨ img.height ≤ y → s.readPixel i x y = none)

/-- The host's accesses that the table has no operation for (R209, R230, R29; as moves of the queue they are the model's,
log 22): a step with no request in progress makes the host's next move; between requests on an image the host reads and
writes any byte of its `pixels` and its fields, changing that and nothing else but the reply; past the capacity, and while a
request on the image is in progress (R76), it is refused; `KEYLATCH` is written and read whole. -/
def Obligations.HostOwnsItsImagesAndKeyLatch : Prop :=
  (∀ (s : State) (m : HostMove) (rest : List HostMove), s.requests = [] → s.queue = m :: rest →
    step s = hostMove m { s with queue := rest }) ∧
  (∀ (s : State) (code : BitVec 16),
    hostMove (.keyWrite code) s = .next { s with keyLatch := code, reply := .none } ∧
    hostMove .keyRead s = .next { s with reply := .key s.keyLatch }) ∧
  ∀ (s : State) (i k w h a : Nat) (v : Byte) (img : Image), s.images[i]? = some img →
    ((∀ q ∈ s.requests, q.img ≠ i) →
      (k < img.capacity →
        (∃ after, hostMove (.imageWrite i k v) s = .next { s with images := s.images.set i after, reply := .none } ∧
          (∀ j, after.byte j = if j = k then v else img.byte j) ∧ after.width = img.width ∧
          after.height = img.height ∧ after.aspectRatio = img.aspectRatio ∧ after.capacity = img.capacity) ∧
        hostMove (.imageRead i k) s = .next { s with reply := .byte (img.byte k) }) ∧
      (img.capacity ≤ k → hostMove (.imageWrite i k v) s = .refused .imageOffsetOutOfRange ∧
        hostMove (.imageRead i k) s = .refused .imageOffsetOutOfRange) ∧
      (∃ after, hostMove (.fieldsWrite i w h a) s = .next { s with images := s.images.set i after, reply := .none } ∧
        after.width = w ∧ after.height = h ∧ after.aspectRatio = a ∧ (∀ j, after.byte j = img.byte j) ∧
        after.capacity = img.capacity) ∧
      hostMove (.fieldsRead i) s = .next { s with reply := .fields img.width img.height img.aspectRatio }) ∧
    (∀ q ∈ s.requests, q.img = i →
      hostMove (.imageWrite i k v) s = .refused .imageInUse ∧ hostMove (.imageRead i k) s = .refused .imageInUse ∧
      hostMove (.fieldsWrite i w h a) s = .refused .imageInUse ∧ hostMove (.fieldsRead i) s = .refused .imageInUse)

/-! ## Invariants and reset -/

/-- Every step keeps `Inv`, from every state that has it. -/
def Obligations.StepKeepsInv : Prop :=
  ∀ s t : State, Inv s → step s = .next t → Inv t

/-- `Inv` holds after reset; what it says of the OPEN gray set holds by the form of its constants (log 12). -/
def Obligations.InvHoldsAtReset : Prop := Inv State.reset

/-- No operation stores an unsupported mode (R25, R206): from a state whose modes are supported, every step leaves them
supported, and none answers `Unsupported`. -/
def Obligations.ModeStaysSupported : Prop :=
  ∀ s t : State, ModeSupported s → step s = .next t →
    ModeSupported t ∧ (s.reply ≠ .result .unsupported → t.reply ≠ .result .unsupported)

/-- The reset state (R250, R50): every byte of memory and of the ports is 0, `MODE`, `BLINK` and `KEYLATCH` are 0, no
request is in progress, and nothing happens until the host issues an operation. -/
def Obligations.ResetZeroesTheBlock : Prop :=
  (∀ a, State.reset.mem.read a = 0) ∧ (∀ p, State.reset.ports.read p = 0) ∧
  State.reset.mode = 0 ∧ State.reset.blink = 0 ∧ State.reset.keyLatch = 0 ∧
  State.reset.requests = [] ∧ step State.reset = .next State.reset
end

