-- ==== Sys2Proof/Laws/State.lean ====
section
/-! SUPPORT. One lemma per field per update of the state, so that no proof unfolds a record update. -/

namespace Sys2Proof.Machine

open Sys2Proof

/-! ## `State.pokeByte` -/

@[simp] theorem State.pokeByte_mem (s : State) (a : Nat) (v : Byte) : (s.pokeByte a v).mem = s.mem.write a v := rfl
@[simp] theorem State.pokeByte_ports (s : State) (a : Nat) (v : Byte) : (s.pokeByte a v).ports = s.ports := rfl
@[simp] theorem State.pokeByte_mode (s : State) (a : Nat) (v : Byte) : (s.pokeByte a v).mode = s.mode := rfl
@[simp] theorem State.pokeByte_blink (s : State) (a : Nat) (v : Byte) : (s.pokeByte a v).blink = s.blink := rfl
@[simp] theorem State.pokeByte_keyLatch (s : State) (a : Nat) (v : Byte) : (s.pokeByte a v).keyLatch = s.keyLatch := rfl
@[simp] theorem State.pokeByte_requests (s : State) (a : Nat) (v : Byte) : (s.pokeByte a v).requests = s.requests := rfl
@[simp] theorem State.pokeByte_tables (s : State) (a : Nat) (v : Byte) : (s.pokeByte a v).tables = s.tables := rfl
@[simp] theorem State.pokeByte_images (s : State) (a : Nat) (v : Byte) : (s.pokeByte a v).images = s.images := rfl
@[simp] theorem State.pokeByte_reply (s : State) (a : Nat) (v : Byte) : (s.pokeByte a v).reply = s.reply := rfl
@[simp] theorem State.pokeByte_queue (s : State) (a : Nat) (v : Byte) : (s.pokeByte a v).queue = s.queue := rfl
@[simp] theorem State.pokeByte_schedule (s : State) (a : Nat) (v : Byte) : (s.pokeByte a v).schedule = s.schedule := rfl
@[simp] theorem State.pokeByte_draws (s : State) (a : Nat) (v : Byte) : (s.pokeByte a v).draws = s.draws := rfl

/-! ## `State.outByte` -/

@[simp] theorem State.outByte_mem (s : State) (p : Nat) (v : Byte) : (s.outByte p v).mem = s.mem := rfl
@[simp] theorem State.outByte_ports (s : State) (p : Nat) (v : Byte) : (s.outByte p v).ports = s.ports.write p v := rfl
@[simp] theorem State.outByte_mode (s : State) (p : Nat) (v : Byte) : (s.outByte p v).mode = s.mode := rfl
@[simp] theorem State.outByte_blink (s : State) (p : Nat) (v : Byte) : (s.outByte p v).blink = s.blink := rfl
@[simp] theorem State.outByte_keyLatch (s : State) (p : Nat) (v : Byte) : (s.outByte p v).keyLatch = s.keyLatch := rfl
@[simp] theorem State.outByte_requests (s : State) (p : Nat) (v : Byte) : (s.outByte p v).requests = s.requests := rfl
@[simp] theorem State.outByte_tables (s : State) (p : Nat) (v : Byte) : (s.outByte p v).tables = s.tables := rfl
@[simp] theorem State.outByte_images (s : State) (p : Nat) (v : Byte) : (s.outByte p v).images = s.images := rfl
@[simp] theorem State.outByte_reply (s : State) (p : Nat) (v : Byte) : (s.outByte p v).reply = s.reply := rfl
@[simp] theorem State.outByte_queue (s : State) (p : Nat) (v : Byte) : (s.outByte p v).queue = s.queue := rfl
@[simp] theorem State.outByte_schedule (s : State) (p : Nat) (v : Byte) : (s.outByte p v).schedule = s.schedule := rfl
@[simp] theorem State.outByte_draws (s : State) (p : Nat) (v : Byte) : (s.outByte p v).draws = s.draws := rfl

/-! ## `State.answer` -/

@[simp] theorem State.answer_mem (s : State) (r : Reply) : (s.answer r).mem = s.mem := rfl
@[simp] theorem State.answer_ports (s : State) (r : Reply) : (s.answer r).ports = s.ports := rfl
@[simp] theorem State.answer_mode (s : State) (r : Reply) : (s.answer r).mode = s.mode := rfl
@[simp] theorem State.answer_blink (s : State) (r : Reply) : (s.answer r).blink = s.blink := rfl
@[simp] theorem State.answer_keyLatch (s : State) (r : Reply) : (s.answer r).keyLatch = s.keyLatch := rfl
@[simp] theorem State.answer_requests (s : State) (r : Reply) : (s.answer r).requests = s.requests := rfl
@[simp] theorem State.answer_tables (s : State) (r : Reply) : (s.answer r).tables = s.tables := rfl
@[simp] theorem State.answer_images (s : State) (r : Reply) : (s.answer r).images = s.images := rfl
@[simp] theorem State.answer_reply (s : State) (r : Reply) : (s.answer r).reply = r := rfl
@[simp] theorem State.answer_queue (s : State) (r : Reply) : (s.answer r).queue = s.queue := rfl
@[simp] theorem State.answer_schedule (s : State) (r : Reply) : (s.answer r).schedule = s.schedule := rfl
@[simp] theorem State.answer_draws (s : State) (r : Reply) : (s.answer r).draws = s.draws := rfl

/-! ## `State.setMode` -/

@[simp] theorem State.setMode_mem (s : State) (n : Byte) : (s.setMode n).mem = s.mem.clearRange Config.vramBase Config.vramSize := rfl
@[simp] theorem State.setMode_mode (s : State) (n : Byte) : (s.setMode n).mode = n := rfl
@[simp] theorem State.setMode_blink (s : State) (n : Byte) : (s.setMode n).blink = s.blink := rfl
@[simp] theorem State.setMode_keyLatch (s : State) (n : Byte) : (s.setMode n).keyLatch = s.keyLatch := rfl
@[simp] theorem State.setMode_requests (s : State) (n : Byte) : (s.setMode n).requests = s.requests := rfl
@[simp] theorem State.setMode_tables (s : State) (n : Byte) : (s.setMode n).tables = s.tables := rfl
@[simp] theorem State.setMode_images (s : State) (n : Byte) : (s.setMode n).images = s.images := rfl
@[simp] theorem State.setMode_reply (s : State) (n : Byte) : (s.setMode n).reply = s.reply := rfl
@[simp] theorem State.setMode_queue (s : State) (n : Byte) : (s.setMode n).queue = s.queue := rfl
@[simp] theorem State.setMode_schedule (s : State) (n : Byte) : (s.setMode n).schedule = s.schedule := rfl
@[simp] theorem State.setMode_draws (s : State) (n : Byte) : (s.setMode n).draws = s.draws := rfl

/-- Color Select is cleared by the set-mode command, and Mode Control set for 0 and 5 (R206). -/
theorem State.setMode_ports (s : State) (n : Byte) :
    (s.setMode n).ports =
      if n = 0 ∨ n = 5 then (s.ports.write Config.csPort 0).write Config.mcPort s.tables.mcGrayDefault
      else s.ports.write Config.csPort 0 := rfl

/-! ## `State.sampleLatch` -/

@[simp] theorem State.sampleLatch_mem (s : State) (i : Nat) (l : LatchName) : (s.sampleLatch i l).mem = s.mem := rfl
@[simp] theorem State.sampleLatch_ports (s : State) (i : Nat) (l : LatchName) : (s.sampleLatch i l).ports = s.ports := rfl
@[simp] theorem State.sampleLatch_mode (s : State) (i : Nat) (l : LatchName) : (s.sampleLatch i l).mode = s.mode := rfl
@[simp] theorem State.sampleLatch_blink (s : State) (i : Nat) (l : LatchName) : (s.sampleLatch i l).blink = s.blink := rfl
@[simp] theorem State.sampleLatch_keyLatch (s : State) (i : Nat) (l : LatchName) : (s.sampleLatch i l).keyLatch = s.keyLatch := rfl
@[simp] theorem State.sampleLatch_requests (s : State) (i : Nat) (l : LatchName) : (s.sampleLatch i l).requests = s.requests.map fun q => if q.img = i then { q with latches := s.resampled q.latches l } else q := rfl
@[simp] theorem State.sampleLatch_tables (s : State) (i : Nat) (l : LatchName) : (s.sampleLatch i l).tables = s.tables := rfl
@[simp] theorem State.sampleLatch_images (s : State) (i : Nat) (l : LatchName) : (s.sampleLatch i l).images = s.images := rfl
@[simp] theorem State.sampleLatch_reply (s : State) (i : Nat) (l : LatchName) : (s.sampleLatch i l).reply = s.reply := rfl
@[simp] theorem State.sampleLatch_queue (s : State) (i : Nat) (l : LatchName) : (s.sampleLatch i l).queue = s.queue := rfl
@[simp] theorem State.sampleLatch_schedule (s : State) (i : Nat) (l : LatchName) : (s.sampleLatch i l).schedule = s.schedule := rfl
@[simp] theorem State.sampleLatch_draws (s : State) (i : Nat) (l : LatchName) : (s.sampleLatch i l).draws = s.draws := rfl

/-! ## `State.openRequest` -/

@[simp] theorem State.openRequest_mem (s : State) (i : Nat) : (s.openRequest i).mem = s.mem := rfl
@[simp] theorem State.openRequest_ports (s : State) (i : Nat) : (s.openRequest i).ports = s.ports := rfl
@[simp] theorem State.openRequest_mode (s : State) (i : Nat) : (s.openRequest i).mode = s.mode := rfl
@[simp] theorem State.openRequest_blink (s : State) (i : Nat) : (s.openRequest i).blink = s.blink := rfl
@[simp] theorem State.openRequest_keyLatch (s : State) (i : Nat) : (s.openRequest i).keyLatch = s.keyLatch := rfl
@[simp] theorem State.openRequest_requests (s : State) (i : Nat) : (s.openRequest i).requests = s.requests ++ [s.newRequest i] := rfl
@[simp] theorem State.openRequest_tables (s : State) (i : Nat) : (s.openRequest i).tables = s.tables := rfl
@[simp] theorem State.openRequest_images (s : State) (i : Nat) : (s.openRequest i).images = s.images := rfl
@[simp] theorem State.openRequest_reply (s : State) (i : Nat) : (s.openRequest i).reply = .none := rfl
@[simp] theorem State.openRequest_queue (s : State) (i : Nat) : (s.openRequest i).queue = s.queue := rfl
@[simp] theorem State.openRequest_schedule (s : State) (i : Nat) : (s.openRequest i).schedule = s.schedule := rfl
@[simp] theorem State.openRequest_draws (s : State) (i : Nat) : (s.openRequest i).draws = s.draws := rfl

/-! ## `State.bringForward` -/

@[simp] theorem State.bringForward_mem (s : State) (i : Nat) : (s.bringForward i).mem = s.mem := rfl
@[simp] theorem State.bringForward_ports (s : State) (i : Nat) : (s.bringForward i).ports = s.ports := rfl
@[simp] theorem State.bringForward_mode (s : State) (i : Nat) : (s.bringForward i).mode = s.mode := rfl
@[simp] theorem State.bringForward_blink (s : State) (i : Nat) : (s.bringForward i).blink = s.blink := rfl
@[simp] theorem State.bringForward_keyLatch (s : State) (i : Nat) : (s.bringForward i).keyLatch = s.keyLatch := rfl
@[simp] theorem State.bringForward_requests (s : State) (i : Nat) : (s.bringForward i).requests = s.requests.filter (fun q => q.img == i) ++ s.requests.filter fun q => !(q.img == i) := rfl
@[simp] theorem State.bringForward_tables (s : State) (i : Nat) : (s.bringForward i).tables = s.tables := rfl
@[simp] theorem State.bringForward_images (s : State) (i : Nat) : (s.bringForward i).images = s.images := rfl
@[simp] theorem State.bringForward_reply (s : State) (i : Nat) : (s.bringForward i).reply = s.reply := rfl
@[simp] theorem State.bringForward_queue (s : State) (i : Nat) : (s.bringForward i).queue = s.queue := rfl
@[simp] theorem State.bringForward_schedule (s : State) (i : Nat) : (s.bringForward i).schedule = s.schedule := rfl
@[simp] theorem State.bringForward_draws (s : State) (i : Nat) : (s.bringForward i).draws = s.draws := rfl

/-! ## `State.closeRequest` -/

@[simp] theorem State.closeRequest_mem (s : State) (i : Nat) (img : Image) (r : Result) : (s.closeRequest i img r).mem = s.mem := rfl
@[simp] theorem State.closeRequest_ports (s : State) (i : Nat) (img : Image) (r : Result) : (s.closeRequest i img r).ports = s.ports := rfl
@[simp] theorem State.closeRequest_mode (s : State) (i : Nat) (img : Image) (r : Result) : (s.closeRequest i img r).mode = s.mode := rfl
@[simp] theorem State.closeRequest_blink (s : State) (i : Nat) (img : Image) (r : Result) : (s.closeRequest i img r).blink = s.blink := rfl
@[simp] theorem State.closeRequest_keyLatch (s : State) (i : Nat) (img : Image) (r : Result) : (s.closeRequest i img r).keyLatch = s.keyLatch := rfl
@[simp] theorem State.closeRequest_requests (s : State) (i : Nat) (img : Image) (r : Result) : (s.closeRequest i img r).requests = s.requests.tail := rfl
@[simp] theorem State.closeRequest_tables (s : State) (i : Nat) (img : Image) (r : Result) : (s.closeRequest i img r).tables = s.tables := rfl
@[simp] theorem State.closeRequest_images (s : State) (i : Nat) (img : Image) (r : Result) : (s.closeRequest i img r).images = s.images.set i img := rfl
@[simp] theorem State.closeRequest_reply (s : State) (i : Nat) (img : Image) (r : Result) : (s.closeRequest i img r).reply = .result r := rfl
@[simp] theorem State.closeRequest_queue (s : State) (i : Nat) (img : Image) (r : Result) : (s.closeRequest i img r).queue = s.queue := rfl
@[simp] theorem State.closeRequest_schedule (s : State) (i : Nat) (img : Image) (r : Result) : (s.closeRequest i img r).schedule = s.schedule := rfl
@[simp] theorem State.closeRequest_draws (s : State) (i : Nat) (img : Image) (r : Result) : (s.closeRequest i img r).draws = s.draws := rfl

/-! ## `State.raiseUnsupported` -/

@[simp] theorem State.raiseUnsupported_mem (s : State) (q : Request) (img : Image) : (s.raiseUnsupported q img).mem = s.mem := rfl
@[simp] theorem State.raiseUnsupported_ports (s : State) (q : Request) (img : Image) : (s.raiseUnsupported q img).ports = s.ports := rfl
@[simp] theorem State.raiseUnsupported_mode (s : State) (q : Request) (img : Image) : (s.raiseUnsupported q img).mode = s.mode := rfl
@[simp] theorem State.raiseUnsupported_blink (s : State) (q : Request) (img : Image) : (s.raiseUnsupported q img).blink = s.blink := rfl
@[simp] theorem State.raiseUnsupported_keyLatch (s : State) (q : Request) (img : Image) : (s.raiseUnsupported q img).keyLatch = s.keyLatch := rfl
@[simp] theorem State.raiseUnsupported_requests (s : State) (q : Request) (img : Image) : (s.raiseUnsupported q img).requests = s.requests.tail := rfl
@[simp] theorem State.raiseUnsupported_tables (s : State) (q : Request) (img : Image) : (s.raiseUnsupported q img).tables = s.tables := rfl
@[simp] theorem State.raiseUnsupported_images (s : State) (q : Request) (img : Image) : (s.raiseUnsupported q img).images = s.images.set q.img (img.withSize 0 0) := rfl
@[simp] theorem State.raiseUnsupported_reply (s : State) (q : Request) (img : Image) : (s.raiseUnsupported q img).reply = .result .unsupported := rfl
@[simp] theorem State.raiseUnsupported_queue (s : State) (q : Request) (img : Image) : (s.raiseUnsupported q img).queue = s.queue := rfl
@[simp] theorem State.raiseUnsupported_schedule (s : State) (q : Request) (img : Image) : (s.raiseUnsupported q img).schedule = s.schedule := rfl
@[simp] theorem State.raiseUnsupported_draws (s : State) (q : Request) (img : Image) : (s.raiseUnsupported q img).draws = s.draws := rfl

/-! ## `State.noTarget` -/

@[simp] theorem State.noTarget_mem (s : State) : s.noTarget.mem = s.mem := rfl
@[simp] theorem State.noTarget_ports (s : State) : s.noTarget.ports = s.ports := rfl
@[simp] theorem State.noTarget_mode (s : State) : s.noTarget.mode = s.mode := rfl
@[simp] theorem State.noTarget_blink (s : State) : s.noTarget.blink = s.blink := rfl
@[simp] theorem State.noTarget_keyLatch (s : State) : s.noTarget.keyLatch = s.keyLatch := rfl
@[simp] theorem State.noTarget_requests (s : State) : s.noTarget.requests = s.requests := rfl
@[simp] theorem State.noTarget_tables (s : State) : s.noTarget.tables = s.tables := rfl
@[simp] theorem State.noTarget_images (s : State) : s.noTarget.images = s.images := rfl
@[simp] theorem State.noTarget_reply (s : State) : s.noTarget.reply = .result .noTarget := rfl
@[simp] theorem State.noTarget_queue (s : State) : s.noTarget.queue = s.queue := rfl
@[simp] theorem State.noTarget_schedule (s : State) : s.noTarget.schedule = s.schedule := rfl
@[simp] theorem State.noTarget_draws (s : State) : s.noTarget.draws = s.draws := rfl

/-! ## `State.noteSeen` -/

@[simp] theorem State.noteSeen_mem (s : State) : s.noteSeen.mem = s.mem := rfl
@[simp] theorem State.noteSeen_ports (s : State) : s.noteSeen.ports = s.ports := rfl
@[simp] theorem State.noteSeen_mode (s : State) : s.noteSeen.mode = s.mode := rfl
@[simp] theorem State.noteSeen_blink (s : State) : s.noteSeen.blink = s.blink := rfl
@[simp] theorem State.noteSeen_keyLatch (s : State) : s.noteSeen.keyLatch = s.keyLatch := rfl
@[simp] theorem State.noteSeen_requests (s : State) : s.noteSeen.requests = s.requests.map fun q => q.note s.mem := rfl
@[simp] theorem State.noteSeen_tables (s : State) : s.noteSeen.tables = s.tables := rfl
@[simp] theorem State.noteSeen_images (s : State) : s.noteSeen.images = s.images := rfl
@[simp] theorem State.noteSeen_reply (s : State) : s.noteSeen.reply = s.reply := rfl
@[simp] theorem State.noteSeen_queue (s : State) : s.noteSeen.queue = s.queue := rfl
@[simp] theorem State.noteSeen_schedule (s : State) : s.noteSeen.schedule = s.schedule := rfl
@[simp] theorem State.noteSeen_draws (s : State) : s.noteSeen.draws = s.draws := rfl

/-! ## `State.putImage` -/

@[simp] theorem State.putImage_mem (s : State) (i : Nat) (img : Image) : (s.putImage i img).mem = s.mem := rfl
@[simp] theorem State.putImage_ports (s : State) (i : Nat) (img : Image) : (s.putImage i img).ports = s.ports := rfl
@[simp] theorem State.putImage_mode (s : State) (i : Nat) (img : Image) : (s.putImage i img).mode = s.mode := rfl
@[simp] theorem State.putImage_blink (s : State) (i : Nat) (img : Image) : (s.putImage i img).blink = s.blink := rfl
@[simp] theorem State.putImage_keyLatch (s : State) (i : Nat) (img : Image) : (s.putImage i img).keyLatch = s.keyLatch := rfl
@[simp] theorem State.putImage_requests (s : State) (i : Nat) (img : Image) : (s.putImage i img).requests = s.requests := rfl
@[simp] theorem State.putImage_tables (s : State) (i : Nat) (img : Image) : (s.putImage i img).tables = s.tables := rfl
@[simp] theorem State.putImage_images (s : State) (i : Nat) (img : Image) : (s.putImage i img).images = s.images.set i img := rfl
@[simp] theorem State.putImage_reply (s : State) (i : Nat) (img : Image) : (s.putImage i img).reply = .none := rfl
@[simp] theorem State.putImage_queue (s : State) (i : Nat) (img : Image) : (s.putImage i img).queue = s.queue := rfl
@[simp] theorem State.putImage_schedule (s : State) (i : Nat) (img : Image) : (s.putImage i img).schedule = s.schedule := rfl
@[simp] theorem State.putImage_draws (s : State) (i : Nat) (img : Image) : (s.putImage i img).draws = s.draws := rfl

/-! ## Latches and requests -/

@[simp] theorem State.sampled_mode (s : State) : s.sampled.mode = s.mode := rfl
@[simp] theorem State.sampled_mc (s : State) : s.sampled.mc = s.mc := rfl
@[simp] theorem State.sampled_cs (s : State) : s.sampled.cs = s.cs := rfl
@[simp] theorem State.sampled_blink (s : State) : s.sampled.blink = s.blink := rfl
@[simp] theorem State.newRequest_img (s : State) (i : Nat) : (s.newRequest i).img = i := rfl
@[simp] theorem State.newRequest_latches (s : State) (i : Nat) : (s.newRequest i).latches = s.sampled := rfl
@[simp] theorem State.newRequest_raster (s : State) (i : Nat) : (s.newRequest i).raster = ⟨0, 0⟩ := rfl
@[simp] theorem State.newRequest_seen (s : State) (i : Nat) : (s.newRequest i).seen = [s.mem] := rfl
@[simp] theorem State.resampled_mode (s : State) (l : Latches) : s.resampled l .mode = { l with mode := s.mode } := rfl
@[simp] theorem State.resampled_mc (s : State) (l : Latches) : s.resampled l .mc = { l with mc := s.mc } := rfl
@[simp] theorem State.resampled_cs (s : State) (l : Latches) : s.resampled l .cs = { l with cs := s.cs } := rfl
@[simp] theorem State.resampled_blink (s : State) (l : Latches) : s.resampled l .blink = { l with blink := s.blink } := rfl
@[simp] theorem Request.note_img (q : Request) (m : Memory) : (q.note m).img = q.img := by unfold Request.note; split <;> rfl
@[simp] theorem Request.note_latches (q : Request) (m : Memory) : (q.note m).latches = q.latches := by unfold Request.note; split <;> rfl
@[simp] theorem Request.note_raster (q : Request) (m : Memory) : (q.note m).raster = q.raster := by unfold Request.note; split <;> rfl

/-- What a request notes is the memory itself, unless it has just seen it (R73(b)). -/
theorem Request.note_seen (q : Request) (m : Memory) :
    (q.note m).seen = if q.seen.head? = some m then q.seen else m :: q.seen := by
  unfold Request.note; split <;> rfl

/-- The latest thing a request has seen is what it has noted. -/
@[simp] theorem Request.note_head (q : Request) (m : Memory) : (q.note m).seen.head? = some m := by
  rw [Request.note_seen]
  split
  · assumption
  · rfl

/-- An image is free when no request in progress names it. -/
theorem State.inUse_eq_false {s : State} {i : Nat} : s.inUse i = false ↔ ∀ q ∈ s.requests, q.img ≠ i := by
  simp [State.inUse]

/-- Bringing a request forward keeps every request. -/
theorem State.mem_bringForward {s : State} {i : Nat} {q : Request} :
    q ∈ (s.bringForward i).requests ↔ q ∈ s.requests := by
  simp only [State.bringForward_requests, List.mem_append, List.mem_filter]
  cases q.img == i <;> simp

/-- Bringing a request forward only reorders the requests. -/
theorem State.bringForward_perm (s : State) (i : Nat) : ((s.bringForward i).requests).Perm s.requests :=
  List.filter_append_perm _ _

/-- The host may access an image it owns that no request in progress names (R209, R230, U13). -/
theorem State.ownImage_ok {s : State} {i : Nat} {img : Image} :
    s.ownImage i = .ok img ↔ s.images[i]? = some img ∧ s.inUse i = false := by
  unfold State.ownImage
  cases s.images[i]? with
  | none => simp
  | some img' => cases s.inUse i <;> simp

/-! ## Images -/

@[simp] theorem Image.withSize_capacity (img : Image) (w h : Nat) : (img.withSize w h).capacity = img.capacity := rfl
@[simp] theorem Image.withSize_token (img : Image) (w h : Nat) : (img.withSize w h).token = img.token := rfl
@[simp] theorem Image.withSize_drawn (img : Image) (w h : Nat) : (img.withSize w h).drawn = img.drawn := rfl
@[simp] theorem Image.withSize_aspectRatio (img : Image) (w h : Nat) : (img.withSize w h).aspectRatio = img.aspectRatio := rfl
@[simp] theorem Image.withSize_width (img : Image) (w h : Nat) : (img.withSize w h).width = w := rfl
@[simp] theorem Image.withSize_height (img : Image) (w h : Nat) : (img.withSize w h).height = h := rfl
@[simp] theorem Image.withPixels_capacity (img : Image) (bs : List Byte) (n : Nat) : (img.withPixels bs n).capacity = img.capacity := rfl
@[simp] theorem Image.withPixels_token (img : Image) (bs : List Byte) (n : Nat) : (img.withPixels bs n).token = img.token := rfl
@[simp] theorem Image.withPixels_width (img : Image) (bs : List Byte) (n : Nat) : (img.withPixels bs n).width = img.width := rfl
@[simp] theorem Image.withPixels_height (img : Image) (bs : List Byte) (n : Nat) : (img.withPixels bs n).height = img.height := rfl
@[simp] theorem Image.withPixels_aspectRatio (img : Image) (bs : List Byte) (n : Nat) : (img.withPixels bs n).aspectRatio = img.aspectRatio := rfl
@[simp] theorem Image.withPixels_drawn (img : Image) (bs : List Byte) (n : Nat) : (img.withPixels bs n).drawn = bs ++ img.drawn.drop n := rfl
@[simp] theorem Image.withSize_byte (img : Image) (w h k : Nat) : (img.withSize w h).byte k = img.byte k := rfl
@[simp] theorem Image.withByte_capacity (img : Image) (k : Nat) (v : Byte) : (img.withByte k v).capacity = img.capacity := rfl
@[simp] theorem Image.withByte_token (img : Image) (k : Nat) (v : Byte) : (img.withByte k v).token = img.token := rfl
@[simp] theorem Image.withByte_width (img : Image) (k : Nat) (v : Byte) : (img.withByte k v).width = img.width := rfl
@[simp] theorem Image.withByte_height (img : Image) (k : Nat) (v : Byte) : (img.withByte k v).height = img.height := rfl
@[simp] theorem Image.withByte_aspectRatio (img : Image) (k : Nat) (v : Byte) : (img.withByte k v).aspectRatio = img.aspectRatio := rfl

/-- The held bytes are the bytes (R34). -/
theorem Image.held_getElem? (img : Image) (n k : Nat) (h : k < n) : (img.held n)[k]? = some (img.byte k) := by
  simp [Image.held, h]

/-- A byte the host writes reads back, and every other byte stays (R209). -/
theorem Image.withByte_byte (img : Image) (k j : Nat) (v : Byte) :
    (img.withByte k v).byte j = if j = k then v else img.byte j := by
  have hl : (img.held k).length = k := by simp [Image.held]
  unfold Image.byte
  show ((img.held k ++ v :: img.drawn.drop (k + 1))[j]?).getD _ = _
  rcases lt_trichotomy j k with h | rfl | h
  · rw [List.getElem?_append_left (by omega), Image.held_getElem? img k j h, if_neg (by omega)]
    rfl
  · rw [List.getElem?_append_right (by omega), hl, Nat.sub_self, if_pos rfl]
    rfl
  · obtain ⟨d, rfl⟩ : ∃ d, j = k + 1 + d := ⟨j - k - 1, by omega⟩
    rw [List.getElem?_append_right (by omega), hl, show k + 1 + d - k = d + 1 by omega, List.getElem?_cons_succ,
      List.getElem?_drop, if_neg (by omega)]
    rfl

/-- A host write lengthens what an image holds up to the byte written at most. -/
theorem Image.withByte_length (img : Image) (k : Nat) (v : Byte) :
    (img.withByte k v).drawn.length = max img.drawn.length (k + 1) := by
  simp only [Image.withByte, Image.held, List.length_append, List.length_map, List.length_range, List.length_cons,
    List.length_drop]
  omega

end Sys2Proof.Machine
end

