-- ==== Sys2Proof/Laws/Frame.lean ====
section
/-! SUPPORT. What the raster scan puts where, and what a drawn frame leaves in the image. -/

namespace Sys2Proof.Machine

open Sys2Proof

@[simp] theorem scanRow_length (pix : Nat → Nat → RGB) (y n x : Nat) :
    (scanRow pix y n x).length = 3 * n := by
  induction n generalizing x with
  | zero => rfl
  | succ n ih => simp [scanRow, ih]; omega

/-- Byte `3k + c` of a scanned row is component `c` of its pixel `k` (R100). -/
theorem scanRow_getElem? (pix : Nat → Nat → RGB) (y n x k c : Nat) (hk : k < n) (hc : c < 3) :
    (scanRow pix y n x)[3 * k + c]? = some ((pix (x + k) y).component c) := by
  induction n generalizing x k with
  | zero => omega
  | succ n ih =>
    cases k with
    | zero =>
      obtain rfl | rfl | rfl : c = 0 ∨ c = 1 ∨ c = 2 := by omega
      all_goals simp [scanRow, RGB.component]
    | succ k =>
      have e : 3 * (k + 1) + c = 3 * k + c + 3 := by omega
      rw [e, scanRow]
      simp only [List.getElem?_cons_succ]
      rw [ih (x + 1) k (by omega), show x + 1 + k = x + (k + 1) by omega]

/-- Whole rows from the left edge are `3·w` bytes each (R12, R100). -/
theorem scanRows_length (pix : Nat → Nat → RGB) (w h y : Nat) :
    (scanRows pix w h ⟨0, y⟩).length = 3 * (w * h) := by
  induction h generalizing y with
  | zero => rfl
  | succ h ih =>
    simp only [scanRows, List.length_append, scanRow_length, ih, Nat.sub_zero, Nat.mul_succ]
    omega

/-- Byte `3·(j·w + x) + c` of a scan of whole rows is component `c` of pixel `x` of its row `j` (R11, R33). -/
theorem scanRows_getElem? (pix : Nat → Nat → RGB) (w h y x j c : Nat) (hx : x < w) (hj : j < h)
    (hc : c < 3) :
    (scanRows pix w h ⟨0, y⟩)[3 * (j * w + x) + c]? = some ((pix x (y + j)).component c) := by
  induction h generalizing y j with
  | zero => omega
  | succ h ih =>
    cases j with
    | zero =>
      simp only [scanRows, Nat.zero_mul, Nat.zero_add, Nat.sub_zero, Nat.add_zero]
      rw [List.getElem?_append_left (by simp; omega), scanRow_getElem? _ _ _ _ _ _ hx hc, Nat.zero_add]
    | succ j =>
      have e : 3 * ((j + 1) * w + x) + c = 3 * w + (3 * (j * w + x) + c) := by
        rw [Nat.add_mul, Nat.one_mul]
        omega
      simp only [scanRows, Nat.sub_zero]
      rw [List.getElem?_append_right (by simp only [scanRow_length]; omega), scanRow_length, e,
        Nat.add_sub_cancel_left, ih (y + 1) j (by omega), show y + 1 + j = y + (j + 1) by omega]

/-- What a frame drawn from the first position leaves in the image: the dimensions, the aspect ratio, every pixel of the
frame, and every byte after the frame as it was (R133, R34, R123). -/
theorem Image.framed_spec (img : Image) (r : Routine) (aspect : Nat) (pix : Nat → Nat → RGB) :
    let after := img.framed r aspect ⟨0, 0⟩ pix
    after.width = r.width ∧ after.height = r.height ∧ after.aspectRatio = aspect ∧
      after.capacity = img.capacity ∧ after.token = img.token ∧
      (∀ x y, x < r.width → y < r.height → after.pixel x y = pix x y) ∧
      (∀ k, 3 * (r.width * r.height) ≤ k → after.byte k = img.byte k) ∧
      after.drawn.length = max img.drawn.length (3 * (r.width * r.height)) := by
  have hlen : (scanRows pix r.width r.height ⟨0, 0⟩).length = 3 * (r.width * r.height) :=
    scanRows_length _ _ _ _
  have hd : (img.framed r aspect ⟨0, 0⟩ pix).drawn =
      scanRows pix r.width r.height ⟨0, 0⟩ ++ img.drawn.drop (3 * (r.width * r.height)) := by
    simp [Image.framed, Image.withPixels, Image.withSize, Image.held]
  refine ⟨rfl, rfl, rfl, rfl, rfl, fun x y hx hy => ?_, fun k hk => ?_, ?_⟩
  · have hb : ∀ c, c < 3 → (img.framed r aspect ⟨0, 0⟩ pix).byte (3 * (y * r.width + x) + c) =
        (pix x y).component c := fun c hc => by
      have hlt : 3 * (y * r.width + x) + c < 3 * (r.width * r.height) := by
        have h1 : (y + 1) * r.width ≤ r.height * r.width := Nat.mul_le_mul_right _ hy
        rw [Nat.add_mul, Nat.one_mul, Nat.mul_comm r.height] at h1
        omega
      rw [Image.byte, hd, List.getElem?_append_left (by omega),
        scanRows_getElem? _ _ _ _ _ _ _ hx hy hc, Nat.zero_add, Option.getD_some]
    have h0 := hb 0 (by omega)
    have h1 := hb 1 (by omega)
    have h2 := hb 2 (by omega)
    rw [Nat.add_zero] at h0
    show RGB.mk ((img.framed r aspect ⟨0, 0⟩ pix).byte (3 * (y * r.width + x))) _ _ = _
    rw [h0]
    exact (congrArg₂ (RGB.mk ((pix x y).component 0)) h1 h2).trans rfl
  · rw [Image.byte, hd, List.getElem?_append_right (by omega), hlen, List.getElem?_drop,
      Nat.add_sub_cancel' hk]
    rfl
  · rw [hd, List.length_append, hlen, List.length_drop]
    omega

end Sys2Proof.Machine
end

