-- ==== Sys2Proof/Laws/Memory.lean ====
section
/-! SUPPORT. The laws of the byte spaces: what a write and a clearing leave at every address, and that the canonical form
is kept. -/

namespace Sys2Proof.Machine

open Sys2Proof

theorem Memory.read_nil (a : Nat) : Memory.read [] a = 0 := rfl

theorem Memory.read_cons (c : Host.Cell) (m : Memory) (a : Nat) :
    Memory.read (c :: m) a = if c.1 = a then c.2 else Memory.read m a := rfl

/-- An address below every listed one reads 0. -/
theorem Memory.read_of_lt {m : Memory} {a : Nat} (h : ∀ c ∈ m, a < c.1) : m.read a = 0 := by
  induction m with
  | nil => rfl
  | cons c m ih =>
    have hc : a < c.1 := h c (by simp)
    rw [Memory.read_cons, if_neg (by omega)]
    exact ih fun d hd => h d (by simp [hd])

/-- Cutting the canonical form: the rest of the list is canonical and lies above the first address. -/
theorem Memory.wf_cons {c : Host.Cell} {m : Memory} :
    Memory.wf (c :: m) ↔ (∀ d ∈ m, c.1 < d.1) ∧ c.2 ≠ 0 ∧ m.wf := by
  simp only [Memory.wf, List.pairwise_cons, List.forall_mem_cons]
  tauto

/-- A write changes its own address and no other (R21, R68, R70). -/
theorem Memory.read_write {m : Memory} (h : m.wf) (a b : Nat) (v : Byte) :
    (m.write a v).read b = if b = a then v else m.read b := by
  induction m with
  | nil =>
    by_cases hv : v = 0
    · subst v
      simp [Memory.write, Memory.read]
    · rw [show Memory.write [] a v = [(a, v)] from if_neg hv, Memory.read_cons, Memory.read_nil]
      simp only [eq_comm (a := b)]
  | cons c m ih =>
    obtain ⟨hlt, -, hm⟩ := Memory.wf_cons.1 h
    have hab : a < c.1 → ∀ d ∈ m, a < d.1 := fun hc d hd => lt_trans hc (hlt d hd)
    unfold Memory.write
    split
    · rename_i hac
      have ha : Memory.read m a = 0 := Memory.read_of_lt (hab hac)
      split
      · subst v
        rw [Memory.read_cons]
        split
        · rw [if_neg (by omega)]
        · split
          · subst b; exact ha
          · rfl
      · simp only [Memory.read_cons]
        by_cases hb : b = a
        · simp [hb]
        · rw [if_neg (by omega), if_neg hb]
    · rename_i hac
      split
      · rename_i heq
        have ha : Memory.read m a = 0 := Memory.read_of_lt fun d hd => heq ▸ hlt d hd
        split
        · subst v
          rw [Memory.read_cons]
          by_cases hb : b = a
          · simp [hb, ha]
          · rw [if_neg hb, if_neg (by omega)]
        · simp only [Memory.read_cons]
          by_cases hb : b = a
          · simp [hb]
          · rw [if_neg (by omega), if_neg hb, if_neg (by omega)]
      · rename_i hne
        rw [Memory.read_cons, Memory.read_cons, ih hm]
        by_cases hb : b = a
        · rw [if_neg (by omega), if_pos hb, if_pos hb]
        · simp [hb]

/-- Every entry after a write is the new one or an old one. -/
theorem Memory.mem_write {m : Memory} {a : Nat} {v : Byte} {c : Host.Cell} (h : c ∈ m.write a v) :
    (c = (a, v) ∧ v ≠ 0) ∨ c ∈ m := by
  induction m with
  | nil =>
    unfold Memory.write at h
    split at h
    · simp at h
    · rename_i hv
      exact .inl ⟨by simpa using h, hv⟩
  | cons d m ih =>
    unfold Memory.write at h
    split_ifs at h with h1 h2 h3 h4
    · exact .inr h
    · rcases List.mem_cons.1 h with h | h
      · exact .inl ⟨h, h2⟩
      · exact .inr h
    · exact .inr (List.mem_cons_of_mem _ h)
    · rcases List.mem_cons.1 h with h | h
      · exact .inl ⟨h, h4⟩
      · exact .inr (List.mem_cons_of_mem _ h)
    · rcases List.mem_cons.1 h with h | h
      · exact .inr (by simp [h])
      · rcases ih h with h | h
        · exact .inl h
        · exact .inr (List.mem_cons_of_mem _ h)

/-- A write keeps the canonical form. -/
theorem Memory.wf_write {m : Memory} (h : m.wf) (a : Nat) (v : Byte) : (m.write a v).wf := by
  induction m with
  | nil =>
    unfold Memory.write
    split
    · exact h
    · rename_i hv
      exact Memory.wf_cons.2 ⟨by simp, hv, h⟩
  | cons c m ih =>
    obtain ⟨hlt, hc, hm⟩ := Memory.wf_cons.1 h
    unfold Memory.write
    split_ifs with h1 h2 h3 h4
    · exact h
    · refine Memory.wf_cons.2 ⟨fun d hd => ?_, h2, h⟩
      rcases List.mem_cons.1 hd with rfl | hd
      · exact h1
      · exact lt_trans h1 (hlt d hd)
    · exact hm
    · exact Memory.wf_cons.2 ⟨fun d hd => h3 ▸ hlt d hd, h4, hm⟩
    · refine Memory.wf_cons.2 ⟨fun d hd => ?_, hc, ih hm⟩
      rcases Memory.mem_write hd with ⟨rfl, -⟩ | hd
      · show c.1 < a
        omega
      · exact hlt d hd

/-- A write inside the space keeps every entry inside it. -/
theorem Memory.inside_write {m : Memory} {size a : Nat} (h : m.inside size) (ha : a < size) (v : Byte) :
    (m.write a v).inside size := fun c hc => by
  rcases Memory.mem_write hc with ⟨rfl, -⟩ | hc
  · exact ha
  · exact h c hc

/-- Clearing a range makes its bytes 0 and leaves every other byte alone (R206). -/
theorem Memory.read_clearRange (m : Memory) (base size a : Nat) :
    (m.clearRange base size).read a = if base ≤ a ∧ a < base + size then 0 else m.read a := by
  induction m with
  | nil => simp [Memory.clearRange, Memory.read]
  | cons c m ih =>
    unfold Memory.clearRange at ih ⊢
    by_cases hc : base ≤ c.1 ∧ c.1 < base + size
    · rw [List.filter_cons_of_neg (by simpa using hc), ih, Memory.read_cons]
      by_cases ha : base ≤ a ∧ a < base + size
      · simp [ha]
      · rw [if_neg ha, if_neg ha, if_neg (by rintro rfl; exact ha hc)]
    · rw [List.filter_cons_of_pos (by simpa [imp_iff_not_or] using hc), Memory.read_cons, Memory.read_cons, ih]
      by_cases ha : c.1 = a
      · subst ha
        rw [if_pos rfl, if_neg hc, if_pos rfl]
      · rw [if_neg ha, if_neg ha]

/-- Clearing a range keeps the canonical form. -/
theorem Memory.wf_clearRange {m : Memory} (h : m.wf) (base size : Nat) : (m.clearRange base size).wf :=
  ⟨h.1.filter _, fun c hc => h.2 c (List.mem_of_mem_filter hc)⟩

/-- Clearing a range keeps every entry inside the space. -/
theorem Memory.inside_clearRange {m : Memory} {n : Nat} (h : m.inside n) (base size : Nat) :
    (m.clearRange base size).inside n := fun c hc => h c (List.mem_of_mem_filter hc)

/-- The empty list is canonical: the space at reset (R50). -/
theorem Memory.wf_nil : Memory.wf [] := ⟨List.Pairwise.nil, by simp⟩

end Sys2Proof.Machine
end

