-- ==== Sys2Proof/Laws/Operands.lean ====
section
/-! SUPPORT. The small laws of the operand and field definitions: what each is as arithmetic on naturals (R8, R9). -/

namespace Sys2Proof.Machine

open Sys2Proof

/-! ## The definitions with their constants at their values (R6, R262)

The constants of Sys2Proof/Machine/Params.lean are names that `omega` does not look through; these equations say each
definition in the spec's own literals. -/

/-- `IMG_CAP` (R6). -/
theorem imgCap_eq : Config.imgCap = 467712 := rfl

/-- `VRAM_SIZE` (R6). -/
theorem vramSize_eq : Config.vramSize = 16384 := rfl

/-- The luma function (R13). -/
theorem luma_eq (c : RGB) : luma c = (299 * c.r.toNat + 587 * c.g.toNat + 114 * c.b.toNat) / 1000 := rfl

/-- The scan code of `KEYLATCH` (R29). -/
theorem State.keyScan_eq (s : State) : s.keyScan = s.keyLatch.extractLsb' 8 8 := rfl

/-- The ASCII code of `KEYLATCH` (R29). -/
theorem State.keyAscii_eq (s : State) : s.keyAscii = s.keyLatch.extractLsb' 0 8 := rfl

/-- The VRAM offset of a scanline byte (R136). -/
theorem goff_eq (row k : Nat) : goff row k = row % 2 * 8192 + row / 2 * 80 + k := rfl

/-- A 2-bit pixel value (R94). -/
theorem pix2_eq (b : Byte) (col : Nat) : pix2 b col = b.toNat / 2 ^ ((3 - col % 4) * 2) % 4 := rfl

/-- A 1-bit pixel value (R95). -/
theorem pix1_eq (b : Byte) (col : Nat) : pix1 b col = bit b (7 - col % 8) := rfl

/-- The VRAM offset of a cell (R181). -/
theorem cellOffset_eq (columns row col : Nat) : cellOffset columns row col = (row / 8 * columns + col / 8) * 2 := rfl

/-- An attribute's foreground (R98, R99). -/
theorem attrFg_eq (attr : Byte) : attrFg attr = field attr 3 0 := rfl

/-- An attribute's background (R98, R99). -/
theorem attrBg_eq (blinkEnable : Bool) (attr : Byte) :
    attrBg blinkEnable attr = if blinkEnable then field attr 6 4 else field attr 7 4 := rfl

/-- An attribute's blink flag (R98, R99). -/
theorem attrFlag_eq (blinkEnable : Bool) (attr : Byte) : attrFlag blinkEnable attr = (blinkEnable && bit attr 7) := rfl

/-- The glyph bit (R182). -/
theorem glyphBit_eq (t : Tables) (code : Byte) (row col : Nat) :
    glyphBit t code row col = bit (t.fontAt (code.toNat * 8 + row % 8)) (7 - col % 8) := rfl

/-- The colour index of a pixel value in `G320` (R151). -/
theorem colIdxG320_eq (l : Latches) (v : Nat) :
    colIdxG320 l v = if v = 0 then l.color
      else (if l.palsel then [3, 5, 7] else [2, 4, 6]).getD (v - 1) 0 + (if l.inten then 8 else 0) := rfl

/-! ## The routines (R131, R150, R160, R170, R180) -/

@[simp] theorem g320_activeW (l : Latches) (t : Tables) : (g320 l t).activeW = 320 := rfl
@[simp] theorem g320_activeH (l : Latches) (t : Tables) : (g320 l t).activeH = 200 := rfl
@[simp] theorem g320_borderCol (l : Latches) (t : Tables) : (g320 l t).borderCol = paletteAt t.pal16 l.color := rfl
@[simp] theorem g320_active (l : Latches) (t : Tables) (vram : Nat → Byte) (row col : Nat) :
    (g320 l t).active vram row col = paletteAt t.pal16 (colIdxG320 l (pix2 (vram (goff row (col / 4))) col)) := rfl
@[simp] theorem g320m5_activeW (l : Latches) (t : Tables) : (g320m5 l t).activeW = 320 := rfl
@[simp] theorem g320m5_activeH (l : Latches) (t : Tables) : (g320m5 l t).activeH = 200 := rfl
@[simp] theorem g320m5_borderCol (l : Latches) (t : Tables) : (g320m5 l t).borderCol = m5Background l t := rfl
@[simp] theorem g320m5_active (l : Latches) (t : Tables) (vram : Nat → Byte) (row col : Nat) :
    (g320m5 l t).active vram row col = m5Color l t (pix2 (vram (goff row (col / 4))) col) := rfl
@[simp] theorem g640_activeW (l : Latches) (t : Tables) : (g640 l t).activeW = 640 := rfl
@[simp] theorem g640_activeH (l : Latches) (t : Tables) : (g640 l t).activeH = 200 := rfl
@[simp] theorem g640_borderCol (l : Latches) (t : Tables) : (g640 l t).borderCol = paletteAt t.pal16 l.color := rfl
@[simp] theorem g640_active (l : Latches) (t : Tables) (vram : Nat → Byte) (row col : Nat) :
    (g640 l t).active vram row col =
      if pix1 (vram (goff row (col / 8))) col then paletteAt t.pal16 l.color else paletteAt t.pal16 0 := rfl
@[simp] theorem textRoutine_activeW (columns : Nat) (l : Latches) (t : Tables) :
    (textRoutine columns l t).activeW = columns * 8 := rfl
@[simp] theorem textRoutine_activeH (columns : Nat) (l : Latches) (t : Tables) :
    (textRoutine columns l t).activeH = 200 := rfl
@[simp] theorem textRoutine_borderCol (columns : Nat) (l : Latches) (t : Tables) :
    (textRoutine columns l t).borderCol = paletteAt (textPalette l t) l.color := rfl
@[simp] theorem textRoutine_active (columns : Nat) (l : Latches) (t : Tables) (vram : Nat → Byte) (row col : Nat) :
    (textRoutine columns l t).active vram row col =
      paletteAt (textPalette l t)
        (textIndex l (vram (cellOffset columns row col + 1)) (glyphBit t (vram (cellOffset columns row col)) row col)) :=
  rfl

/-- The width of an image is the active width and 32 (R131). -/
theorem Routine.width_eq (r : Routine) : r.width = r.activeW + 32 := rfl

/-- The height of an image is the active height and 32 (R131). -/
theorem Routine.height_eq (r : Routine) : r.height = r.activeH + 32 := rfl

/-! ## Bits, fields and colours -/

/-- Bit `i` of a byte by division and remainder (R9). -/
theorem bit_iff (v : Byte) (i : Nat) : bit v i = true ↔ v.toNat / 2 ^ i % 2 = 1 := by
  simp [bit, BitVec.getLsbD, Nat.testBit_eq_decide_div_mod_eq]

/-- `v[3:0]` of a byte (R9). -/
theorem field_3_0 (v : Byte) : field v 3 0 = v.toNat % 16 := by simp [field]

/-- A field of a byte is below the power of two of its width (R9). -/
theorem field_lt (v : Byte) (hi lo : Nat) : field v hi lo < 2 ^ (hi - lo + 1) :=
  Nat.mod_lt _ (Nat.two_pow_pos _)

/-- `CS.COLOR` as a remainder (R24). -/
theorem Latches.color_eq (l : Latches) : l.color = l.cs.toNat % 16 := field_3_0 l.cs

/-- `MC.BW` as a remainder (R23). -/
theorem Latches.bw_iff (l : Latches) : l.bw = true ↔ l.mc.toNat / 4 % 2 = 1 := bit_iff l.mc 2

/-- `MC.BLINK_EN` as a remainder (R23). -/
theorem Latches.blinkEnable_iff (l : Latches) : l.blinkEnable = true ↔ l.mc.toNat / 32 % 2 = 1 := bit_iff l.mc 5

/-- `CS.INTEN` as a remainder (R24). -/
theorem Latches.inten_iff (l : Latches) : l.inten = true ↔ l.cs.toNat / 16 % 2 = 1 := bit_iff l.cs 4

/-- `CS.PALSEL` as a remainder (R24). -/
theorem Latches.palsel_iff (l : Latches) : l.palsel = true ↔ l.cs.toNat / 32 % 2 = 1 := bit_iff l.cs 5

/-- A 2-bit pixel value is 0 to 3 (R94). -/
theorem pix2_lt (b : Byte) (col : Nat) : pix2 b col < 4 := Nat.mod_lt _ (by decide)

/-- The colour index of the background pixel in `G320` (R151). -/
theorem colIdxG320_zero (l : Latches) : colIdxG320 l 0 = l.color := rfl

/-- The read of the gray palette (R41). -/
theorem paletteAt_gray16 (t : Tables) {i : Nat} (h : i < 16) :
    paletteAt t.gray16 i = gray (paletteAt t.pal16 i) := by
  simp [paletteAt, Tables.gray16, h]

/-- The text palette's entries (R183). -/
theorem paletteAt_textPalette (l : Latches) (t : Tables) {i : Nat} (h : i < 16) :
    paletteAt (textPalette l t) i =
      if l.bw then gray (paletteAt t.pal16 i) else paletteAt t.pal16 i := by
  unfold textPalette
  split
  · exact paletteAt_gray16 t h
  · rfl

/-- Which positions are active, as a proposition (R132). -/
theorem Routine.isActive_iff (r : Routine) (x y : Nat) :
    r.isActive x y = true ↔ 16 ≤ x ∧ x < 16 + r.activeW ∧ 16 ≤ y ∧ y < 16 + r.activeH := by
  simp [Routine.isActive]

/-- The colour of a position, by the inequalities of R132 and R133. -/
theorem Routine.pixel_eq (r : Routine) (vram : Nat → Byte) (x y : Nat) :
    r.pixel vram x y =
      if 16 ≤ x ∧ x < 16 + r.activeW ∧ 16 ≤ y ∧ y < 16 + r.activeH then r.active vram (y - 16) (x - 16)
      else r.borderCol := by
  unfold Routine.pixel
  by_cases h : r.isActive x y = true
  · rw [if_pos h, if_pos ((r.isActive_iff x y).1 h)]
  · rw [if_neg h, if_neg fun h' => h ((r.isActive_iff x y).2 h')]

end Sys2Proof.Machine
end

