-- ==== Sys2Proof/Laws/Ops.lean ====
section
/-! SUPPORT. One lemma per shared operation: all it can do. -/

namespace Sys2Proof.Machine

open Sys2Proof Sys2Proof.Safety

/-- When a `MODE8` operation may work on the first request in progress. -/
theorem State.dispatched_ok {s : State} {m : Byte} {q : Request} {img : Image} :
    s.dispatched m = .ok (q, img) ↔
      s.requests.head? = some q ∧ q.latches.mode = m ∧ HasTarget s q.img img := by
  unfold State.dispatched HasTarget
  cases hr : s.requests with
  | nil => simp
  | cons p rest =>
    simp only [List.head?_cons, Option.some.injEq]
    constructor
    · intro h
      split at h
      · rename_i hm
        split at h
        · cases h
        · rename_i img' himg
          split at h
          · rename_i hcap
            cases h
            exact ⟨rfl, hm, himg, hcap⟩
          · cases h
      · cases h
    · rintro ⟨rfl, hm, himg, hcap⟩
      simp only [hm, himg, if_true]
      rw [if_pos hcap]

/-- When no `MODE8` operation of mode `m` may run: nothing in progress, or another mode latched (R223). -/
theorem State.dispatched_refused {s : State} {m : Byte}
    (h : ∀ q, s.requests.head? = some q → q.latches.mode ≠ m) : s.dispatched m = .error .notDispatched := by
  unfold State.dispatched
  cases hr : s.requests with
  | nil => rfl
  | cons q rest => simp only; rw [if_neg (h q (by simp [hr]))]

/-- The state after a frame: the request ended with the drawn image, the counter of the free value moved on. -/
abbrev State.afterFrame (s : State) (q : Request) (img : Image) (r : Routine) : State :=
  { s.closeRequest q.img (img.framed r s.tables.aspect q.raster fun x y => r.pixel (s.vramSeen q x y) x y) .ok
    with draws := s.draws + 1 }

/-- What drawing a frame leaves, when the dispatcher has selected the mode. -/
theorem State.drawFrame_of_dispatched {s : State} {m : Byte} (routine : Latches → Tables → Routine) {q : Request}
    {img : Image} (h : s.dispatched m = .ok (q, img)) :
    s.drawFrame m routine = .next (s.afterFrame q img (routine q.latches s.tables)) := by
  simp only [State.drawFrame, h]

/-- All a frame can do: if it answers a next state, the request was dispatched and the frame is drawn. -/
theorem State.drawFrame_next {s t : State} {m : Byte} {routine : Latches → Tables → Routine}
    (h : s.drawFrame m routine = .next t) :
    ∃ q img, s.dispatched m = .ok (q, img) ∧ t = s.afterFrame q img (routine q.latches s.tables) := by
  cases hd : s.dispatched m with
  | error why => simp [State.drawFrame, hd] at h
  | ok p =>
    obtain ⟨q, img⟩ := p
    rw [State.drawFrame_of_dispatched routine hd] at h
    cases h
    exact ⟨q, img, rfl, rfl⟩

/-- With `memory` unchanged since the request started, a VRAM read sees the byte itself (R72). -/
theorem State.vramSeen_undisturbed {s : State} {q : Request} (h : Undisturbed s q) (x y o : Nat) :
    s.vramSeen q x y o = s.mem.vram o := by
  have hs : q.seen = [s.mem] := h
  simp [State.vramSeen, hs, Nat.mod_one]

/-- Running a word that decodes is running its operation. -/
theorem runWord_ok {w : OpWord} {i : Instr} (h : decode w = .ok i) (s : State) : runWord w s = exec i s := by
  simp [runWord, h]

/-- All that an operation can do when it answers a next state, guards included. -/
inductive Effect (s : State) : Instr → State → Prop
  | poke {a v} : a < Config.memSize → Effect s (.poke a v) ((s.pokeByte a v).answer .none)
  | peek {a} : a < Config.memSize → Effect s (.peek a) (s.answer (.byte (s.mem.read a)))
  | portOut {p v} : p < Config.portCount → Effect s (.portOut p v) ((s.outByte p v).answer .none)
  | portIn {p} : p < Config.portCount → Effect s (.portIn p) (s.answer (.byte (s.ports.read p)))
  | blink {b} : Effect s (.blink b) ({ s with blink := b }.answer .none)
  | setmode {i n} : setmodeArgument i = some n → Config.supportedMode n = true →
      Effect s i ((s.setMode n).answer .none)
  | noTarget : Effect s (.render none) s.noTarget
  | start {i img} : s.inUse i = false → HasTarget s i img → Effect s (.render (some i)) (s.openRequest i)
  | unsupported {m q img} : Config.supportedMode m = false → s.dispatched m = .ok (q, img) →
      Effect s (.renderUnsupported m) (s.raiseUnsupported q img)
  | frame {i m r q img} : s.dispatched m = .ok (q, img) → routineOf q.latches s.tables i = some (m, r) →
      Effect s i (s.afterFrame q img r)

/-- Every next state of every operation is one of `Effect`'s cases. -/
theorem exec_effect {i : Instr} {s t : State} (h : exec i s = .next t) : Effect s i t := by
  cases i with
  | renderT40 => obtain ⟨q, img, hd, rfl⟩ := State.drawFrame_next h; exact .frame hd rfl
  | renderT80 => obtain ⟨q, img, hd, rfl⟩ := State.drawFrame_next h; exact .frame hd rfl
  | renderG320 => obtain ⟨q, img, hd, rfl⟩ := State.drawFrame_next h; exact .frame hd rfl
  | renderG320M5 => obtain ⟨q, img, hd, rfl⟩ := State.drawFrame_next h; exact .frame hd rfl
  | renderG640 => obtain ⟨q, img, hd, rfl⟩ := State.drawFrame_next h; exact .frame hd rfl
  | renderUnsupported m =>
    simp only [exec, execRenderUnsupported] at h
    split at h
    · cases h
    · rename_i hm
      split at h
      · cases h
      · rename_i q img hd
        cases h
        exact .unsupported (by simpa using hm) hd
  | setmode0 => cases h; exact .setmode rfl rfl
  | setmode1 => cases h; exact .setmode rfl rfl
  | setmode4 => cases h; exact .setmode rfl rfl
  | setmode5 => cases h; exact .setmode rfl rfl
  | setmode6 => cases h; exact .setmode rfl rfl
  | poke a v =>
    simp only [exec, execPoke] at h
    split at h
    · rename_i ha; cases h; exact .poke ha
    · cases h
  | peek a =>
    simp only [exec, execPeek] at h
    split at h
    · rename_i ha; cases h; exact .peek ha
    · cases h
  | portOut p v =>
    simp only [exec, execPortOut] at h
    split at h
    · rename_i hp; cases h; exact .portOut hp
    · cases h
  | portIn p =>
    simp only [exec, execPortIn] at h
    split at h
    · rename_i hp; cases h; exact .portIn hp
    · cases h
  | setmode n =>
    simp only [exec, execSetmode] at h
    split at h
    · rename_i hn; cases h; exact .setmode rfl hn
    · cases h
  | blink b => cases h; exact .blink
  | render img =>
    cases img with
    | none => cases h; exact .noTarget
    | some i =>
      simp only [exec, execRender] at h
      split at h
      · cases h
      · rename_i target himg
        split at h
        · cases h
        · rename_i hfree
          split at h
          · rename_i hcap; cases h; exact .start (by simpa using hfree) ⟨himg, hcap⟩
          · cases h

/-- No operation writes a table or `KEYLATCH`. -/
theorem Effect.tables_keyLatch {s t : State} {i : Instr} (h : Effect s i t) :
    t.tables = s.tables ∧ t.keyLatch = s.keyLatch := by
  cases h <;> exact ⟨rfl, rfl⟩

/-- No operation takes a move from the host's queue or a turn from the schedule. -/
theorem Effect.queue_schedule {s t : State} {i : Instr} (h : Effect s i t) :
    t.queue = s.queue ∧ t.schedule = s.schedule := by
  cases h <;> exact ⟨rfl, rfl⟩

/-- What an operation does to the requests in progress: RENDER adds one, a `MODE8` operation ends the first, and every
other operation leaves them and the images alone. -/
theorem Effect.request_cases {s t : State} {i : Instr} (h : Effect s i t) :
    (∃ j img, i = .render (some j) ∧ s.inUse j = false ∧ HasTarget s j img ∧ t = s.openRequest j) ∨
    (∃ m q img, s.dispatched m = .ok (q, img) ∧ t.requests = s.requests.tail ∧
      ∃ after : Image, t.images = s.images.set q.img after ∧ after.capacity = img.capacity) ∨
    (t.requests = s.requests ∧ t.images = s.images) := by
  cases h with
  | start h1 h2 => exact .inl ⟨_, _, rfl, h1, h2, rfl⟩
  | unsupported _ hd => exact .inr (.inl ⟨_, _, _, hd, rfl, _, rfl, rfl⟩)
  | frame hd _ => exact .inr (.inl ⟨_, _, _, hd, rfl, _, rfl, rfl⟩)
  | _ => exact .inr (.inr ⟨rfl, rfl⟩)

/-- The word may come from the host's queue: any but a `MODE8` word. -/
def fromHost : OpWord → Bool
  | .mode8 _ => false
  | .hostop _ _ => true
  | .setmodeArg8 _ => true

/-- All that a move of the host can do when it answers a next state, guards included. -/
inductive HostEffect (s : State) : HostMove → State → Prop
  | op {w i t} : fromHost w = true → decode w = .ok i → exec i s = .next t → HostEffect s (.op w) t
  | keyWrite {v} : HostEffect s (.keyWrite v) ({ s with keyLatch := v }.answer .none)
  | keyRead : HostEffect s .keyRead (s.answer (.key s.keyLatch))
  | imageWrite {i k v img} : s.ownImage i = .ok img → k < img.capacity →
      HostEffect s (.imageWrite i k v) (s.putImage i (img.withByte k v))
  | imageRead {i k img} : s.ownImage i = .ok img → k < img.capacity →
      HostEffect s (.imageRead i k) (s.answer (.byte (img.byte k)))
  | fieldsWrite {i w h a img} : s.ownImage i = .ok img →
      HostEffect s (.fieldsWrite i w h a) (s.putImage i { img.withSize w h with aspectRatio := a })
  | fieldsRead {i img} : s.ownImage i = .ok img →
      HostEffect s (.fieldsRead i) (s.answer (.fields img.width img.height img.aspectRatio))

theorem runWord_next {w : OpWord} {s t : State} (h : runWord w s = .next t) :
    ∃ i, decode w = .ok i ∧ exec i s = .next t := by
  unfold runWord at h
  split at h
  · rename_i i hi; exact ⟨i, hi, h⟩
  · cases h

/-- Every next state of a move of the host is one of `HostEffect`'s cases. -/
theorem hostMove_effect {m : HostMove} {s t : State} (h : hostMove m s = .next t) : HostEffect s m t := by
  cases m with
  | op w =>
    cases w with
    | mode8 m => cases h
    | hostop tag operands => obtain ⟨i, hi, ht⟩ := runWord_next h; exact .op rfl hi ht
    | setmodeArg8 n => obtain ⟨i, hi, ht⟩ := runWord_next h; exact .op rfl hi ht
  | keyWrite v => cases h; exact .keyWrite
  | keyRead => cases h; exact .keyRead
  | imageWrite i k v =>
    simp only [hostMove, hostImageWrite] at h
    split at h
    · cases h
    · rename_i img hi
      split at h
      · rename_i hk; cases h; exact .imageWrite hi hk
      · cases h
  | imageRead i k =>
    simp only [hostMove, hostImageRead] at h
    split at h
    · cases h
    · rename_i img hi
      split at h
      · rename_i hk; cases h; exact .imageRead hi hk
      · cases h
  | fieldsWrite i w hh a =>
    simp only [hostMove, hostFieldsWrite] at h
    split at h
    · cases h
    · rename_i img hi; cases h; exact .fieldsWrite hi
  | fieldsRead i =>
    simp only [hostMove, hostFieldsRead] at h
    split at h
    · cases h
    · rename_i img hi; cases h; exact .fieldsRead hi

/-- A move of the host that is an operation of the table runs that operation. -/
theorem hostMove_op {w : OpWord} {i : Instr} (hw : fromHost w = true) (hi : decode w = .ok i) (s : State) :
    hostMove (.op w) s = exec i s := by
  cases w with
  | mode8 m => cases hw
  | hostop tag operands => exact runWord_ok hi s
  | setmodeArg8 n => exact runWord_ok hi s

/-- All that a step can do when it answers a next state. -/
inductive Move (s : State) : State → Prop
  /-- The host has nothing left to do. -/
  | idle : s.requests = [] → s.queue = [] → Move s s
  /-- The host's next move. -/
  | host {m rest t} : s.requests = [] → s.queue = m :: rest → HostEffect { s with queue := rest } m t → Move s t
  /-- The operation the dispatcher selects for the first request. -/
  | dispatch {i q t} : s.requests.head? = some q → s.schedule = [] → decodeMode8 q.latches.mode = .ok i →
      exec i s = .next t → Move s t
  /-- The operation the dispatcher selects for the request that the schedule names. -/
  | dispatchNamed {i k q sched t} : s.schedule = .renderer k :: sched →
      (s.bringForward k).requests.head? = some q → decodeMode8 q.latches.mode = .ok i →
      exec i (State.bringForward { s with schedule := sched } k) = .next t → Move s t
  /-- A late sample of one latch. -/
  | sample {k l sched} : s.requests ≠ [] → s.schedule = .sample k l :: sched →
      Move s (State.sampleLatch { s with schedule := sched } k l)
  /-- The host's turn while a request is in progress, with nothing left to do. -/
  | idleDuring {sched} : s.requests ≠ [] → s.schedule = .host :: sched → s.queue = [] →
      Move s (State.noteSeen { s with schedule := sched })
  /-- A move of the host while a request is in progress. -/
  | during {m rest sched t} : s.requests ≠ [] → s.schedule = .host :: sched → s.queue = m :: rest →
      HostEffect { s with schedule := sched, queue := rest } m t → Move s t.noteSeen

theorem hostTurn_next {s t : State} (h : hostTurn s = .next t) :
    (s.queue = [] ∧ t = s) ∨ ∃ m rest, s.queue = m :: rest ∧ HostEffect { s with queue := rest } m t := by
  unfold hostTurn at h
  split at h
  · rename_i hq; cases h; exact .inl ⟨hq, rfl⟩
  · rename_i m rest hq; exact .inr ⟨m, rest, hq, hostMove_effect h⟩

theorem rendererTurn_next {s t : State} (h : rendererTurn s = .next t) (hs : s.requests ≠ []) :
    ∃ q i, s.requests.head? = some q ∧ decodeMode8 q.latches.mode = .ok i ∧ exec i s = .next t := by
  unfold rendererTurn at h
  split at h
  · rename_i hn; exact absurd hn hs
  · rename_i q rest hq
    obtain ⟨i, hi, ht⟩ := runWord_next h
    exact ⟨q, i, by simp [hq], hi, ht⟩

/-- Bringing a request forward leaves requests in progress as long as there were any. -/
theorem State.bringForward_ne_nil {s : State} (i : Nat) (h : s.requests ≠ []) : (s.bringForward i).requests ≠ [] :=
  fun hn => h (List.nil_perm.1 (hn ▸ s.bringForward_perm i))

/-- Every next state of a step is one of `Move`'s cases. -/
theorem step_move {s t : State} (h : step s = .next t) : Move s t := by
  unfold step turn at h
  split at h
  · rename_i hq
    rcases hostTurn_next h with ⟨hw, rfl⟩ | ⟨m, rest, hw, he⟩
    · exact .idle hq hw
    · exact .host hq hw he
  · rename_i q rest hq
    have hs : s.requests ≠ [] := by simp [hq]
    unfold requestTurn at h
    split at h
    · rename_i hsch
      obtain ⟨q, i, hh, hi, ht⟩ := rendererTurn_next h hs
      exact .dispatch hh hsch hi ht
    · rename_i k sched hsch
      obtain ⟨q, i, hh, hi, ht⟩ := rendererTurn_next h (State.bringForward_ne_nil k (by exact hs))
      exact .dispatchNamed hsch hh hi ht
    · rename_i k l sched hsch
      cases h
      exact .sample hs hsch
    · rename_i sched hsch
      unfold hostTurnDuring at h
      split at h
      · rename_i u hu
        cases h
        rcases hostTurn_next hu with ⟨hw, rfl⟩ | ⟨m, rest, hw, he⟩
        · exact .idleDuring hs hsch hw
        · exact .during hs hsch hw he
      · cases h
      · cases h

end Sys2Proof.Machine
end

