-- ==== Sys2Proof/Laws/PerInstr.lean ====
section
/-! SUPPORT. A statement about every operation, one lemma per constructor: the word of a well-formed operation has
every operand field in the range R102 states for it. -/

namespace Sys2Proof.Laws.WordFits

open Sys2Proof

/-- The encoded word of a well-formed operation is in range (R92, R93, R102). -/
def Statement (i : Instr) : Prop := i.wellFormed = true → wordInRange (encode i) = true

theorem renderT40 : Statement .renderT40 := fun _ => rfl
theorem renderT80 : Statement .renderT80 := fun _ => rfl
theorem renderG320 : Statement .renderG320 := fun _ => rfl
theorem renderG320M5 : Statement .renderG320M5 := fun _ => rfl
theorem renderG640 : Statement .renderG640 := fun _ => rfl
theorem renderUnsupported (m : Byte) : Statement (.renderUnsupported m) := fun _ => rfl
theorem setmode0 : Statement .setmode0 := fun _ => rfl
theorem setmode1 : Statement .setmode1 := fun _ => rfl
theorem setmode4 : Statement .setmode4 := fun _ => rfl
theorem setmode5 : Statement .setmode5 := fun _ => rfl
theorem setmode6 : Statement .setmode6 := fun _ => rfl

theorem poke (addr : Nat) (val : Byte) : Statement (.poke addr val) := fun h => by
  have ha : addr < Config.memSize := by simpa [Instr.wellFormed] using h
  simp [encode, wordInRange, ha, val.isLt]

theorem peek (addr : Nat) : Statement (.peek addr) := fun h => h

theorem portOut (port : Nat) (val : Byte) : Statement (.portOut port val) := fun h => by
  have hp : port < Config.portCount := by simpa [Instr.wellFormed] using h
  simp [encode, wordInRange, hp, val.isLt]

theorem portIn (port : Nat) : Statement (.portIn port) := fun h => h

theorem setmode (n : Byte) : Statement (.setmode n) := fun h => by
  have hn : Config.supportedMode n = true := h
  simp [encode, wordInRange, hn, n.isLt]

theorem blink (b : BitVec 1) : Statement (.blink b) := fun _ => by
  simp [encode, wordInRange, b.isLt]

theorem render (img : Option Nat) : Statement (.render img) := fun _ => rfl

end Sys2Proof.Laws.WordFits
end

