-- ==== Sys2Proof/Tests/Slice0.lean ====
section
/-! SUPPORT. Tests: ill-formed terms, words written out from the encodings, the spec's test vectors, single steps, and for
each statement with hypotheses a state or operands that meet them. -/

namespace Sys2Proof.Tests

open Sys2Proof Sys2Proof.Machine Sys2Proof.Safety

/-! ## Helpers -/

/-- A 2,048-byte glyph table with one byte set (95_test_vectors.md, table `TF`: row 0 of code 0x41 is 0x30). -/
def glyphs : Vector Byte 2048 := (Vector.replicate 2048 0).set 0x208 0x30

/-- Tables with the values 95_test_vectors.md uses (mode-5 sets: its placeholders). -/
def tables : Tables where
  pal16 := pal16Default
  m5Color := ⟨⟨0, 170, 170⟩, ⟨170, 0, 0⟩, ⟨170, 170, 170⟩⟩
  m5Gray := ⟨grayLevel 85, grayLevel 170, grayLevel 255⟩
  font := glyphs
  mcGrayDefault := 0x04
  aspect := 0

/-- An image with the capacity `n`. -/
def image (n : Nat) : Image := ⟨n, 0, [], 352, 232, 0⟩

/-- A launch state (R211): memory, ports, mode, the host's operations, two images. -/
def launch (mem ports : Memory) (mode : Byte) (words : List OpWord) : State :=
  { State.reset with
    mem := mem, ports := ports, mode := mode, queue := words.map .op, tables := tables
    images := [image 467712, image 467712] }

/-- A request on image 0 at `mode_l = m` with nothing seen but the memory itself. -/
def asked (mem : Memory) (m mc cs : Byte) : Request := ⟨0, ⟨m, mc, cs, 0⟩, ⟨0, 0⟩, [mem]⟩

/-- A state with that request in progress. -/
def during (mem : Memory) (m mc cs : Byte) : State := { launch mem [] m [] with requests := [asked mem m mc cs] }

/-- Video RAM given as pairs of offset and byte. -/
def vram (cells : List (Nat × Byte)) : Nat → Byte := fun o => Memory.read cells o

/-- What an outcome's next state answers under a reading; nothing on a stop. -/
def after {α : Type} (o : Host.Outcome State Fault Refusal) (f : State → α) : Option α :=
  match o with
  | .next t => some (f t)
  | .fault _ => none
  | .refused _ => none

/-- The refusal of an outcome. -/
def refusal (o : Host.Outcome State Fault Refusal) : Option Refusal :=
  match o with
  | .next _ => none
  | .fault _ => none
  | .refused why => some why

/-! ## Ill-formed terms, one per check of `WellFormed` -/

theorem test_wellFormed_refuses_poke_out_of_range : (Instr.poke 0x100000 0).wellFormed = false := by decide
theorem test_wellFormed_refuses_peek_out_of_range : (Instr.peek 0x100000).wellFormed = false := by decide
theorem test_wellFormed_refuses_out_out_of_range : (Instr.portOut 0x10000 0).wellFormed = false := by decide
theorem test_wellFormed_refuses_in_out_of_range : (Instr.portIn 0x10000).wellFormed = false := by decide
theorem test_wellFormed_refuses_setmode_2 : (Instr.setmode 2).wellFormed = false := by decide
theorem test_wellFormed_refuses_unsupported_4 : (Instr.renderUnsupported 4).wellFormed = false := by decide
theorem test_wellFormed_takes_the_last_addresses :
    (Instr.poke 0xFFFFF 0xFF).wellFormed = true ∧ (Instr.portOut 0xFFFF 0xFF).wellFormed = true ∧
    (Instr.renderUnsupported 0xFF).wellFormed = true := by decide

/-! ## Decoding: words written out bit by bit from R92, R93 and R102 -/

theorem test_decode_renderT40 : decode (.mode8 0b00000000) = .ok .renderT40 := by decide
theorem test_decode_renderT80 : decode (.mode8 0b00000001) = .ok .renderT80 := by decide
theorem test_decode_renderG320 : decode (.mode8 0b00000100) = .ok .renderG320 := by decide
theorem test_decode_renderG320M5 : decode (.mode8 0b00000101) = .ok .renderG320M5 := by decide
theorem test_decode_renderG640 : decode (.mode8 0b00000110) = .ok .renderG640 := by decide
/-- One word of each of R92's seven rows without a routine, first and last of the ranges. -/
theorem test_decode_renderUnsupported :
    [0b00000010, 0b00000011, 0b00000111, 0b00001000, 0b00001111, 0b00010000, 0b00011111, 0b00100000, 0b00111111,
      0b01000000, 0b01111111, 0b10000000, 0b11111111].all
      (fun m => decide (decode (.mode8 m) = .ok (.renderUnsupported m))) = true := by decide
theorem test_decode_setmode0 : decode (.setmodeArg8 0b00000000) = .ok .setmode0 := by decide
theorem test_decode_setmode1 : decode (.setmodeArg8 0b00000001) = .ok .setmode1 := by decide
theorem test_decode_setmode4 : decode (.setmodeArg8 0b00000100) = .ok .setmode4 := by decide
theorem test_decode_setmode5 : decode (.setmodeArg8 0b00000101) = .ok .setmode5 := by decide
theorem test_decode_setmode6 : decode (.setmodeArg8 0b00000110) = .ok .setmode6 := by decide
theorem test_decode_poke : decode (.hostop 0b000 [0xB8000, 0x1B]) = .ok (.poke 0xB8000 0x1B) := by decide
theorem test_decode_peek : decode (.hostop 0b001 [0xB8000]) = .ok (.peek 0xB8000) := by decide
theorem test_decode_portOut : decode (.hostop 0b010 [0x3D9, 0x21]) = .ok (.portOut 0x3D9 0x21) := by decide
theorem test_decode_portIn : decode (.hostop 0b011 [0x3D8]) = .ok (.portIn 0x3D8) := by decide
theorem test_decode_setmode : decode (.hostop 0b100 [0x06]) = .ok (.setmode 0x06) := by decide
theorem test_decode_blink : decode (.hostop 0b101 [1]) = .ok (.blink 1) := by decide
theorem test_decode_render_none : decode (.hostop 0b110 [0]) = .ok (.render none) := by decide
theorem test_decode_render_image : decode (.hostop 0b110 [1]) = .ok (.render (some 0)) := by decide
theorem test_decode_refuses_tag7 : decode (.hostop 0b111 []) = .error .reservedTag := by decide
theorem test_decode_refuses_wide_byte : decode (.hostop 0 [0, 256]) = .error .operandTooWide := by decide
theorem test_decode_refuses_wide_phase : decode (.hostop 5 [2]) = .error .operandTooWide := by decide
theorem test_decode_refuses_missing_operand : decode (.hostop 0 [0]) = .error .operandCount := by decide
theorem test_decode_refuses_setmode_argument : decode (.setmodeArg8 2) = .error .setmodeArgument := by decide
/-- Numbers of the opcode table: 0 to 6 are `HOSTOP` tags, the rest of a byte is `MODE8` (log 2). -/
theorem test_decodeTableWord :
    decodeTableWord 8 1 = some (.peek 0) ∧ decodeTableWord 8 6 = some (.render none) ∧
    decodeTableWord 8 0x80 = some (.renderUnsupported 0x80) ∧ decodeTableWord 8 256 = none := by decide

/-! ## The spec's test vectors -/

/-- 95_test_vectors.md 2.1. -/
theorem test_luma_vectors :
    [(⟨0, 0, 170⟩, 19), (⟨0, 170, 0⟩, 99), (⟨0, 170, 170⟩, 119), (⟨170, 0, 0⟩, 50), (⟨170, 85, 0⟩, 100),
      (⟨85, 255, 85⟩, 184), (⟨1, 1, 1⟩, 1), (⟨255, 0, 0⟩, 76), (⟨0, 255, 0⟩, 149), (⟨0, 0, 255⟩, 29),
      (⟨255, 255, 255⟩, 255)].all (fun c : RGB × Nat => decide (luma c.1 = c.2)) = true := by decide

/-- 95_test_vectors.md 2.2. -/
theorem test_pix2_vectors :
    [(0x00, [0, 0, 0, 0]), (0xFF, [3, 3, 3, 3]), (0x1B, [0, 1, 2, 3]), (0xE4, [3, 2, 1, 0]), (0x80, [2, 0, 0, 0]),
      (0x01, [0, 0, 0, 1]), (0x6C, [1, 2, 3, 0])].all
      (fun c : Byte × List Nat => decide ((List.range 4).map (pix2 c.1) = c.2)) = true := by decide

/-- 95_test_vectors.md 2.3. -/
theorem test_pix1_vectors :
    [(0x81, [1, 0, 0, 0, 0, 0, 0, 1]), (0x80, [1, 0, 0, 0, 0, 0, 0, 0]), (0x01, [0, 0, 0, 0, 0, 0, 0, 1]),
      (0xA5, [1, 0, 1, 0, 0, 1, 0, 1])].all
      (fun c : Byte × List Nat => decide ((List.range 8).map (fun k => (pix1 c.1 k).toNat) = c.2)) = true := by decide

/-- 95_test_vectors.md 2.4. -/
theorem test_goff_vectors :
    goff 0 0 = 0 ∧ goff 1 0 = 8192 ∧ goff 2 0 = 80 ∧ goff 3 1 = 8273 ∧ goff 100 40 = 4040 ∧ goff 101 40 = 12232 ∧
    goff 198 79 = 7999 ∧ goff 199 79 = 16191 := by decide

/-- 95_test_vectors.md 2.5. -/
theorem test_g320_index_vectors :
    [(0x00, [0, 2, 4, 6]), (0x10, [0, 10, 12, 14]), (0x20, [0, 3, 5, 7]), (0x30, [0, 11, 13, 15]),
      (0x21, [1, 3, 5, 7]), (0x1F, [15, 10, 12, 14]), (0xFF, [15, 11, 13, 15]), (0xC0, [0, 2, 4, 6]),
      (0x02, [2, 2, 4, 6])].all
      (fun c : Byte × List Nat => decide ((List.range 4).map (colIdxG320 ⟨4, 0, c.1, 0⟩) = c.2)) = true := by decide

/-- 95_test_vectors.md 2.6, colour 0 and the border, then values 1 to 3. -/
theorem test_m5_vectors :
    (List.range 4).map (m5Color ⟨5, 0x04, 0x04, 0⟩ tables) =
      [⟨50, 50, 50⟩, ⟨85, 85, 85⟩, ⟨170, 170, 170⟩, ⟨255, 255, 255⟩] ∧
    (List.range 4).map (m5Color ⟨5, 0x00, 0x04, 0⟩ tables) =
      [⟨170, 0, 0⟩, ⟨0, 170, 170⟩, ⟨170, 0, 0⟩, ⟨170, 170, 170⟩] ∧
    m5Color ⟨5, 0x04, 0x34, 0⟩ tables 0 = ⟨50, 50, 50⟩ ∧ m5Color ⟨5, 0x24, 0x0F, 0⟩ tables 0 = ⟨255, 255, 255⟩ ∧
    m5Color ⟨5, 0x04, 0x06, 0⟩ tables 0 = ⟨100, 100, 100⟩ ∧ m5Color ⟨5, 0xFB, 0x01, 0⟩ tables 0 = ⟨0, 0, 170⟩ := by
  decide

/-- 95_test_vectors.md 2.8: the indices shown for glyph bit 1 and glyph bit 0. -/
theorem test_text_index_vectors :
    [(0x9E, 0x20, 0, 14, 1), (0x9E, 0x20, 1, 1, 14), (0x9E, 0x00, 1, 14, 9), (0x1E, 0x20, 1, 14, 1),
      (0xF4, 0x20, 1, 7, 4), (0x80, 0x20, 1, 0, 0)].all
      (fun c : Byte × Byte × BitVec 1 × Nat × Nat =>
        let l : Latches := ⟨1, c.2.1, 0, c.2.2.1⟩
        decide (textIndex l c.1 true = c.2.2.2.1 ∧ textIndex l c.1 false = c.2.2.2.2)) = true := by decide

/-- 95_test_vectors.md 2.8: flag, background, foreground with blink enabled; background with blink disabled. -/
theorem test_attribute_vectors :
    [(0x07, false, 0, 7, 0), (0x9E, true, 1, 14, 9), (0xF4, true, 7, 4, 15), (0x7F, false, 7, 15, 7)].all
      (fun c : Byte × Bool × Nat × Nat × Nat =>
        decide (attrFlag true c.1 = c.2.1 ∧ attrBg true c.1 = c.2.2.1 ∧ attrFg c.1 = c.2.2.2.1 ∧
          attrBg false c.1 = c.2.2.2.2 ∧ attrFlag false c.1 = false)) = true := by decide

/-- 95_test_vectors.md 2.9. -/
theorem test_cell_vectors :
    cellOffset 40 0 319 = 78 ∧ cellOffset 40 8 0 = 80 ∧ cellOffset 40 199 319 = 1998 ∧ cellOffset 80 0 639 = 158 ∧
    cellOffset 80 15 9 = 162 ∧ cellOffset 80 199 639 = 3998 := by decide

/-- 95_test_vectors.md 2.9: `TF[0x208]` = 0x30 is 0 0 1 1 0 0 0 0 from the left. -/
theorem test_glyph_bits :
    (List.range 8).map (fun col => glyphBit tables 0x41 0 col) =
      [false, false, true, true, false, false, false, false] := by decide +kernel

/-- 95_test_vectors.md P1: pixels of the `G320` frame with Color Select 0x21, and its border. -/
theorem test_g320_frame_vectors :
    let r := g320 ⟨4, 0, 0x21, 0⟩ tables
    let v := vram [(0, 0x1B), (7999, 0x03), (8192, 0xE4), (16191, 0x02)]
    [(0, 0), (15, 16), (16, 16), (17, 16), (18, 16), (19, 16), (16, 17), (335, 214), (335, 215), (336, 215)].map
        (fun p => r.pixel v p.1 p.2) =
      [⟨0, 0, 170⟩, ⟨0, 0, 170⟩, ⟨0, 0, 170⟩, ⟨0, 170, 170⟩, ⟨170, 0, 170⟩, ⟨170, 170, 170⟩, ⟨170, 170, 170⟩,
        ⟨170, 170, 170⟩, ⟨170, 0, 170⟩, ⟨0, 0, 170⟩] := by decide

/-- 95_test_vectors.md P4, frames A and B. -/
theorem test_g320m5_frame_vectors :
    let v := vram [(0, 0x1B)]
    [(0, 0), (16, 16), (17, 16)].map (fun p => (g320m5 ⟨5, 0x04, 0x34, 0⟩ tables).pixel v p.1 p.2) =
      [⟨50, 50, 50⟩, ⟨50, 50, 50⟩, ⟨85, 85, 85⟩] ∧
    [(0, 0), (16, 16), (17, 16)].map (fun p => (g320m5 ⟨5, 0x00, 0x34, 0⟩ tables).pixel v p.1 p.2) =
      [⟨170, 0, 0⟩, ⟨170, 0, 0⟩, ⟨0, 170, 170⟩] := by decide

/-- 95_test_vectors.md P2, the second frame. -/
theorem test_g640_frame_vectors :
    let r := g640 ⟨6, 0, 0x0F, 0⟩ tables
    let v := vram [(0, 0x81), (16191, 0x01)]
    [(0, 0), (16, 16), (17, 16), (22, 16), (23, 16), (24, 16), (654, 215), (655, 215), (656, 215)].map
        (fun p => (r.pixel v p.1 p.2).r) = [255, 255, 0, 0, 255, 0, 0, 255, 255] := by decide

/-- 95_test_vectors.md P3, frames A and B: the first row of cell (0,0), and its border. -/
theorem test_t80_frame_vectors :
    let v := vram [(0, 0x41), (1, 0x9E)]
    let blue : RGB := ⟨0, 0, 170⟩
    let yellow : RGB := ⟨255, 255, 85⟩
    (List.range 8).map (fun k => (textRoutine 80 ⟨1, 0x20, 0x04, 0⟩ tables).pixel v (16 + k) 16) =
      [blue, blue, yellow, yellow, blue, blue, blue, blue] ∧
    (List.range 8).map (fun k => (textRoutine 80 ⟨1, 0x20, 0x04, 1⟩ tables).pixel v (16 + k) 16) =
      [yellow, yellow, blue, blue, yellow, yellow, yellow, yellow] ∧
    (textRoutine 80 ⟨1, 0x20, 0x04, 1⟩ tables).pixel v 0 0 = ⟨170, 0, 0⟩ := by decide +kernel

/-- 95_test_vectors.md P3, frame D, and P5, step 5: the gray palette in the cell and on the border. -/
theorem test_text_gray_vectors :
    let v := vram [(0, 0x41), (1, 0x9E)]
    (textRoutine 80 ⟨1, 0x24, 0x04, 0⟩ tables).pixel v 16 16 = ⟨19, 19, 19⟩ ∧
    (textRoutine 80 ⟨1, 0x24, 0x04, 0⟩ tables).pixel v 18 16 = ⟨235, 235, 235⟩ ∧
    (textRoutine 80 ⟨1, 0x24, 0x04, 0⟩ tables).pixel v 0 0 = ⟨50, 50, 50⟩ ∧
    (textRoutine 40 ⟨0, 0x04, 0x01, 0⟩ tables).pixel (fun _ => 0) 336 215 = ⟨19, 19, 19⟩ := by decide +kernel

/-- 95_test_vectors.md 2.10: image sizes. -/
theorem test_geometry :
    (textRoutine 40 ⟨0, 0, 0, 0⟩ tables).width = 352 ∧ (textRoutine 80 ⟨1, 0, 0, 0⟩ tables).width = 672 ∧
    (g320 ⟨4, 0, 0, 0⟩ tables).width = 352 ∧ (g320m5 ⟨5, 0, 0, 0⟩ tables).height = 232 ∧
    (g640 ⟨6, 0, 0, 0⟩ tables).width = 672 := by decide

/-- R100, R33: the bytes of a small frame in raster order. -/
theorem test_raster_order :
    scanRows (fun x y => ⟨BitVec.ofNat 8 x, BitVec.ofNat 8 y, 9⟩) 2 2 ⟨0, 0⟩ = [0, 0, 9, 1, 0, 9, 0, 1, 9, 1, 1, 9] ∧
    scanRows (fun x y => ⟨BitVec.ofNat 8 x, BitVec.ofNat 8 y, 9⟩) 2 1 ⟨1, 1⟩ = [1, 1, 9] := by decide

/-! ## One step of each operation (95_test_vectors.md 2.11, 2.12) -/

theorem test_step_poke :
    after (step (launch [] [] 0 [.hostop 0 [0xB8000, 0x1B]])) (·.mem) = some [(0xB8000, 0x1B)] := by decide
theorem test_step_poke_zero_removes :
    after (step (launch [(5, 1), (9, 2)] [] 0 [.hostop 0 [9, 0]])) (·.mem) = some [(5, 1)] := by decide
theorem test_step_peek :
    after (step (launch [(0xB8000, 0x1B)] [] 0 [.hostop 1 [0xB8000]])) (·.reply) = some (.byte 0x1B) := by decide
theorem test_step_out :
    after (step (launch [] [(0x3D8, 1)] 0 [.hostop 2 [0x3D9, 0xFF]])) (·.ports) =
      some [(0x3D8, 1), (0x3D9, 0xFF)] := by decide
theorem test_step_in :
    after (step (launch [] [(0x3D9, 0xFF)] 0 [.hostop 3 [0x3D9]])) (·.reply) = some (.byte 0xFF) := by decide
theorem test_step_blink : after (step (launch [] [] 0 [.hostop 5 [1]])) (·.blink) = some 1 := by decide
theorem test_step_setmode4 :
    after (step (launch [(0x450, 7), (0xB8000, 0xFF), (0xBBFFF, 0xFF), (0xBC000, 3)] [(0x3D8, 0x20), (0x3D9, 0x2A)] 0
      [.hostop 4 [4]])) (fun t => (t.mem, t.ports, t.mode)) =
      some ([(0x450, 7), (0xBC000, 3)], [(0x3D8, 0x20)], 4) := by decide
theorem test_step_setmode0_writes_mode_control :
    after (step (launch [] [(0x3D8, 0x20)] 6 [.setmodeArg8 0])) (fun t => (t.ports, t.mode)) =
      some ([(0x3D8, 0x04)], 0) := by decide
theorem test_step_setmode1_keeps_mode_control :
    after (step (launch [] [(0x3D8, 0x04)] 0 [.setmodeArg8 1])) (fun t => (t.ports, t.mode)) =
      some ([(0x3D8, 0x04)], 1) := by decide
theorem test_step_setmode4_by_argument :
    after (step (launch [] [] 0 [.setmodeArg8 4])) (fun t => (t.ports, t.mode)) = some ([], 4) := by decide
theorem test_step_setmode5_writes_mode_control :
    after (step (launch [] [] 0 [.setmodeArg8 5])) (fun t => (t.ports, t.mode)) = some ([(0x3D8, 0x04)], 5) := by decide
theorem test_step_setmode6 :
    after (step (launch [] [(0x3D9, 0x2A)] 4 [.setmodeArg8 6])) (fun t => (t.ports, t.mode)) = some ([], 6) := by decide
theorem test_step_setmode2_refused :
    refusal (step (launch [] [] 0 [.hostop 4 [2]])) = some .setmodeArgument := by decide
theorem test_step_poke_out_of_range_refused :
    refusal (step (launch [] [] 0 [.hostop 0 [0x100000, 0]])) = some .addressOutOfRange := by decide
theorem test_step_render_latches :
    after (step (launch [] [(0x3D8, 0x24), (0x3D9, 0x21)] 4 [.hostop 6 [1]])) (·.requests) =
      some [⟨0, ⟨4, 0x24, 0x21, 0⟩, ⟨0, 0⟩, [[]]⟩] := by decide
theorem test_step_render_other_image :
    after (step { during [] 4 0 0 with schedule := [.host], queue := [.op (.hostop 6 [2])] })
      (fun t => t.requests.map Request.img) = some [0, 1] := by decide
theorem test_step_render_same_image_refused :
    refusal (step { during [] 4 0 0 with schedule := [.host], queue := [.op (.hostop 6 [1])] }) =
      some .requestInProgress := by decide
theorem test_step_renderer_turn_by_name :
    after (step { during [] 4 0 0 with
        requests := [asked [] 4 0 0, { asked [] 6 0 0 with img := 1 }], schedule := [.renderer 1] })
      (fun t => (t.requests.map Request.img, t.images.map fun i => i.height)) = some ([0], [232, 232]) := by decide
theorem test_step_image_write :
    after (step { launch [] [] 0 [] with queue := [.imageWrite 0 2 7] })
      (fun t => (t.images.head?.map fun i => i.byte 2, t.images.map fun i => i.drawn.length)) =
      some (some 7, [3, 0]) := by decide
theorem test_step_image_write_during_request_refused :
    refusal (step { during [] 4 0 0 with schedule := [.host], queue := [.imageWrite 0 2 7] }) = some .imageInUse := by
  decide
theorem test_step_image_write_past_capacity_refused :
    refusal (step { launch [] [] 0 [] with queue := [.imageWrite 0 467712 7] }) = some .imageOffsetOutOfRange := by
  decide
theorem test_step_image_fields :
    after (step { launch [] [] 0 [] with queue := [.fieldsRead 1] }) (·.reply) = some (.fields 352 232 0) := by decide
theorem test_step_key :
    after (step { launch [] [] 0 [] with queue := [.keyWrite 0x1E61] }) (fun t => (t.keyScan, t.keyAscii)) =
      some (0x1E, 0x61) := by decide
theorem test_step_render_none :
    after (step (launch [] [] 2 [.hostop 6 [0]])) (·.reply) = some (.result .noTarget) := by decide
theorem test_step_unsupported :
    after (step (during [] 2 0 0)) (fun t => (t.images.map fun i => (i.width, i.height), t.reply, t.requests)) =
      some ([(0, 0), (352, 232)], .result .unsupported, []) := by decide
theorem test_step_t40 :
    after (step (during [] 0 0 0)) (fun t => (t.images.map fun i => (i.width, i.height), t.reply)) =
      some ([(352, 232), (352, 232)], .result .ok) := by decide
theorem test_step_t80 :
    after (step (during [] 1 0 0)) (fun t => (t.images.map fun i => (i.width, i.height), t.reply)) =
      some ([(672, 232), (352, 232)], .result .ok) := by decide
theorem test_step_g320_first_byte :
    after (step (during [] 4 0 0x04)) (fun t => t.images.head?.map fun i => (i.width, i.byte 0, i.byte 1)) =
      some (some (352, 170, 0)) := by decide
theorem test_step_g320m5_first_byte :
    after (step (during [] 5 0x04 0x04)) (fun t => t.images.head?.map fun i => (i.width, i.byte 0, i.byte 2)) =
      some (some (352, 50, 50)) := by decide
theorem test_step_g640_first_byte :
    after (step (during [] 6 0 0x0F)) (fun t => t.images.head?.map fun i => (i.width, i.byte 0, i.byte 2)) =
      some (some (672, 255, 255)) := by decide
/-- The step runs a word of the opcode table placed after reset. -/
theorem test_withFetchWord :
    after (step (State.reset.withFetchWord 8 5)) (·.reply) = some .none ∧
    after (step (State.reset.withFetchWord 8 6)) (·.reply) = some (.result .noTarget) ∧
    after (step (State.reset.withFetchWord 8 0xFF)) (·.reply) = some (.result .unsupported) := by decide

/-! ## Witnesses: states and operands that meet the hypotheses of the statements -/

theorem test_witness_DecodeEncodeRoundTrip :
    (Instr.peek 0xFFFFF).wellFormed = true ∧ (Instr.setmode 6).wellFormed = true := by decide
theorem test_witness_EncodeDecodeRoundTrip : decode (.hostop 2 [0xFFFF, 255]) = .ok (.portOut 0xFFFF 255) := by decide
theorem test_witness_SetmodeArguments :
    ∀ n ∈ [(2 : Byte), 3, 7, 255], n ≠ 0 ∧ n ≠ 1 ∧ n ≠ 4 ∧ n ≠ 5 ∧ n ≠ 6 := by decide
theorem test_witness_ReservedTagAndWideOperandsRefused : 256 ≤ (256 : Nat) := by decide

/-- A state whose host is about to OUT. -/
def outNext : State := launch [] [] 4 [.hostop 2 [0x3D9, 1], .hostop 3 [0x3D9]]

/-- StepRunsHostOperation: a word that decodes, one that does not, and a `MODE8` word. -/
theorem test_witness_StepRunsHostOperation :
    (outNext.requests = [] ∧ outNext.queue = .op (.hostop 2 [0x3D9, 1]) :: [.op (.hostop 3 [0x3D9])] ∧
      (∀ m, OpWord.hostop 2 [0x3D9, 1] ≠ .mode8 m) ∧ decode (.hostop 2 [0x3D9, 1]) = .ok (.portOut 0x3D9 1)) ∧
    ((launch [] [] 0 [.hostop 7 []]).queue = .op (.hostop 7 []) :: [] ∧
      (∀ m, OpWord.hostop 7 [] ≠ .mode8 m) ∧ decode (.hostop 7 []) = .error .reservedTag) ∧
    (launch [] [] 0 [.mode8 4]).queue = .op (.mode8 4) :: [] :=
  ⟨⟨rfl, rfl, (fun _ h => by cases h), by decide⟩, ⟨rfl, (fun _ h => by cases h), by decide⟩, rfl⟩

/-- Two requests in progress, on images 0 and 1. -/
def twoAsked : State :=
  { during [] 4 0 0 with requests := [asked [] 4 0 0, { asked [] 6 0 0 with img := 1 }], schedule := [.renderer 1] }

theorem test_witness_StepRunsDispatchedOperation :
    ((during [] 4 0 0).requests.head? = some (asked [] 4 0 0) ∧ (during [] 4 0 0).schedule = [] ∧
      decode (.mode8 (asked [] 4 0 0).latches.mode) = .ok .renderG320) ∧
    (twoAsked.schedule = .renderer 1 :: [] ∧
      (twoAsked.bringForward 1).requests.head? = some { asked [] 6 0 0 with img := 1 } ∧
      decode (.mode8 6) = .ok .renderG640) := by decide

/-- A request in progress with the host's turn first, and a POKE waiting. -/
def torn : State :=
  { during [] 4 0 0 with schedule := [.host, .renderer 0], queue := [.op (.hostop 0 [0xB8000, 0xFF])] }

theorem test_witness_StepRunsHostOperationDuringRequest :
    torn.requests ≠ [] ∧ torn.schedule = .host :: [.renderer 0] ∧
    torn.queue = .op (.hostop 0 [0xB8000, 0xFF]) :: [] ∧
    decode (.hostop 0 [0xB8000, 0xFF]) = .ok (.poke 0xB8000 0xFF) ∧
    (∀ m, OpWord.hostop 0 [0xB8000, 0xFF] ≠ .mode8 m) ∧
    ∃ t, exec (.poke 0xB8000 0xFF) { torn with schedule := [.renderer 0], queue := [] } = .next t :=
  ⟨by decide, rfl, rfl, by decide, (fun _ h => by cases h), _, rfl⟩

theorem test_witness_IdleStepChangesNothing : State.reset.requests = [] ∧ State.reset.queue = [] := ⟨rfl, rfl⟩

theorem test_witness_memory_wf :
    Memory.wf [(0x450, 7), (0xB8000, 0x1B), (0xBBFFF, 1)] ∧ Memory.wf [] := by decide

theorem test_witness_CanonicalMemoriesReadingAlikeAreEqual :
    Memory.wf [(3, 7)] ∧ ∀ a, Memory.read [(3, 7)] a = Memory.read [(3, 7)] a := ⟨by decide, fun _ => rfl⟩

/-- PokeAndOutStoreTheirByte, PeekAndInReturnTheByte: the last address or port in range and the first out of
range, over canonical memory and ports. -/
theorem test_witness_byte_accesses :
    (launch [(1, 2)] [(3, 4)] 0 []).mem.wf ∧ (launch [(1, 2)] [(3, 4)] 0 []).ports.wf ∧
    0xFFFFF < 0x100000 ∧ 0x100000 ≤ 0x100000 ∧ 0xFFFF < 0x10000 ∧ 0x10000 ≤ 0x10000 := by decide

theorem test_witness_LoadAfterStoreReturnsTheByte :
    (let s := launch [] [] 0 [encode (.poke 0xFFFFF 9), encode (.peek 0xFFFFF)]
     s.requests = [] ∧ s.mem.wf ∧ s.ports.wf ∧
      s.queue = .op (encode (.poke 0xFFFFF 9)) :: .op (encode (.peek 0xFFFFF)) :: []) ∧
    (let s := launch [] [] 0 [encode (.portOut 0xFFFF 9), encode (.portIn 0)]
     s.requests = [] ∧ s.mem.wf ∧ s.ports.wf ∧
      s.queue = .op (encode (.portOut 0xFFFF 9)) :: .op (encode (.portIn 0)) :: []) := by
  decide

theorem test_witness_SetmodeEffects :
    (launch [(0xB8000, 1)] [(0x3D8, 1)] 2 []).mem.wf ∧ (launch [(0xB8000, 1)] [(0x3D8, 1)] 2 []).ports.wf ∧
    setmodeArgument .setmode0 = some 0 ∧ setmodeArgument .setmode1 = some 1 ∧ setmodeArgument .setmode4 = some 4 ∧
    setmodeArgument .setmode5 = some 5 ∧ setmodeArgument .setmode6 = some 6 ∧ setmodeArgument (.setmode 6) = some 6 := by
  decide

/-- The first image of a launch state can be rendered into. -/
theorem launch_hasTarget (mem ports : Memory) (mode : Byte) (words : List OpWord) :
    HasTarget (launch mem ports mode words) 0 (image 467712) := ⟨rfl, Nat.le_refl _⟩

/-- RenderSamplesTheLatches: with nothing in progress, and with a request on the other image. -/
theorem test_witness_RenderSamplesTheLatches :
    ((launch [] [] 2 []).images[0]? = some (image 467712) ∧ 467712 ≤ (image 467712).capacity ∧
      ∀ q ∈ (launch [] [] 2 []).requests, q.img ≠ 0) ∧
    ((during [] 4 0 0).images[1]? = some (image 467712) ∧ ∀ q ∈ (during [] 4 0 0).requests, q.img ≠ 1) :=
  ⟨⟨rfl, Nat.le_refl _, by decide⟩, rfl, by decide⟩

theorem test_witness_RenderRefusals :
    (let s := { launch [] [] 0 [] with images := [image 467711] }
     s.images[0]? = some (image 467711) ∧ (∀ q ∈ s.requests, q.img ≠ 0) ∧ (image 467711).capacity < 467712) ∧
    (launch [] [] 0 []).images[2]? = none ∧
    ((during [] 0 0 0).images[0]? = some (image 467712) ∧ asked [] 0 0 0 ∈ (during [] 0 0 0).requests ∧
      (asked [] 0 0 0).img = 0) :=
  ⟨⟨rfl, by decide, by decide⟩, rfl, rfl, by decide, rfl⟩

theorem test_witness_RoutinesNeedTheDispatcher :
    (∃ r, routineOf ⟨4, 0, 0, 0⟩ (launch [] [] 4 []).tables .renderG320 = some (4, r) ∧
      (launch [] [] 4 []).requests = []) ∧
    (∃ r, routineOf ⟨4, 0, 0, 0⟩ (during [] 6 0 0).tables .renderG320 = some (4, r) ∧
      (during [] 6 0 0).requests.head? = some (asked [] 6 0 0) ∧ (asked [] 6 0 0).latches.mode ≠ 4) :=
  ⟨⟨_, rfl, rfl⟩, ⟨_, rfl, rfl, by decide⟩⟩

/-- The request of `during` is in progress, and nothing has disturbed it. -/
theorem during_inProgress (mem : Memory) (m mc cs : Byte) :
    InProgress (during mem m mc cs) (asked mem m mc cs) (image 467712) m ∧
      Undisturbed (during mem m mc cs) (asked mem m mc cs) :=
  ⟨⟨rfl, rfl, ⟨rfl, Nat.le_refl _⟩, rfl⟩, rfl⟩

theorem test_witness_UnsupportedModeZeroesTheDimensions :
    ∀ m ∈ [(2 : Byte), 255], (during [] m 0 0).requests.head? = some (asked [] m 0 0) ∧
      HasTarget (during [] m 0 0) 0 (image 467712) ∧ (asked [] m 0 0).latches.mode = m ∧
      m ≠ 0 ∧ m ≠ 1 ∧ m ≠ 4 ∧ m ≠ 5 ∧ m ≠ 6 :=
  fun m hm => ⟨rfl, ⟨rfl, Nat.le_refl _⟩, rfl,
    (by decide : ∀ m ∈ [(2 : Byte), 255], m ≠ 0 ∧ m ≠ 1 ∧ m ≠ 4 ∧ m ≠ 5 ∧ m ≠ 6) m hm⟩

/-- G320DrawsItsFrame, G320M5DrawsItsFrame, G640DrawsItsFrame. -/
theorem test_witness_graphics_frames :
    (InProgress (during [(0xB8000, 0x1B)] 4 0 0x21) (asked [(0xB8000, 0x1B)] 4 0 0x21) (image 467712) 4 ∧
      Undisturbed (during [(0xB8000, 0x1B)] 4 0 0x21) (asked [(0xB8000, 0x1B)] 4 0 0x21)) ∧
    (InProgress (during [] 5 4 4) (asked [] 5 4 4) (image 467712) 5 ∧
      Undisturbed (during [] 5 4 4) (asked [] 5 4 4)) ∧
    (InProgress (during [] 6 0 15) (asked [] 6 0 15) (image 467712) 6 ∧
      Undisturbed (during [] 6 0 15) (asked [] 6 0 15)) :=
  ⟨during_inProgress _ _ _ _, during_inProgress _ _ _ _, during_inProgress _ _ _ _⟩

/-- TextRoutinesDrawTheirFrame, for each of the two rows of its list. -/
theorem test_witness_TextRoutinesDrawTheirFrame :
    (Instr.renderT40, (0 : Byte), 40) ∈ [(Instr.renderT40, (0 : Byte), 40), (Instr.renderT80, 1, 80)] ∧
    (Instr.renderT80, (1 : Byte), 80) ∈ [(Instr.renderT40, (0 : Byte), 40), (Instr.renderT80, 1, 80)] ∧
    (InProgress (during [] 0 0x24 1) (asked [] 0 0x24 1) (image 467712) 0 ∧
      Undisturbed (during [] 0 0x24 1) (asked [] 0 0x24 1)) ∧
    (InProgress (during [] 1 0x20 1) (asked [] 1 0x20 1) (image 467712) 1 ∧
      Undisturbed (during [] 1 0x20 1) (asked [] 1 0x20 1)) :=
  ⟨by decide, by decide, during_inProgress _ _ _ _, during_inProgress _ _ _ _⟩

theorem test_witness_EveryRoutineCompletesItsFrame :
    ∃ r, routineOf (asked [] 1 0 0).latches (during [] 1 0 0).tables .renderT80 = some (1, r) ∧
      InProgress (during [] 1 0 0) (asked [] 1 0 0) (image 467712) 1 := ⟨_, rfl, (during_inProgress _ _ _ _).1⟩

/-- RenderRequestIsOneFrame, for a mode with a routine and one without. -/
theorem test_witness_RenderRequestIsOneFrame :
    ∀ mode ∈ [(6 : Byte), 2],
      let s := launch [] [] mode [encode (.render (some 0))]
      s.requests = [] ∧ s.schedule = [] ∧ s.queue = .op (encode (.render (some 0))) :: [] ∧
      HasTarget s 0 (image 467712) :=
  fun _ _ => ⟨rfl, rfl, rfl, launch_hasTarget _ _ _ _⟩
theorem test_witness_RenderRequestIsOneFrame_modes :
    Config.supportedMode 6 = true ∧ Config.supportedMode 2 = false := by decide

theorem test_witness_RequestsOnDifferentImagesDoNotInterfere :
    let s := { launch [] [] 4 [encode (.render (some 0)), encode (.render (some 1))] with
      schedule := [.host, .renderer 1] }
    0 ≠ 1 ∧ s.requests = [] ∧ s.schedule = [.host, .renderer 1] ∧
    s.queue = .op (encode (.render (some 0))) :: .op (encode (.render (some 1))) :: [] ∧
    HasTarget s 0 (image 467712) ∧ HasTarget s 1 (image 467712) ∧ Config.supportedMode s.mode = true :=
  ⟨by decide, rfl, rfl, rfl, ⟨rfl, Nat.le_refl _⟩, ⟨rfl, Nat.le_refl _⟩, by decide⟩

theorem test_witness_FirstFrameIsBlack :
    let s := launch [] [] 0 [encode (.render (some 0))]
    s.mem = [] ∧ s.ports = [] ∧ s.mode = 0 ∧ s.blink = 0 ∧ paletteAt s.tables.pal16 0 = ⟨0, 0, 0⟩ ∧
    s.requests = [] ∧ s.schedule = [] ∧ s.queue = .op (encode (.render (some 0))) :: [] ∧
    HasTarget s 0 (image 467712) :=
  ⟨rfl, rfl, rfl, rfl, by decide, rfl, rfl, rfl, launch_hasTarget _ _ _ _⟩

theorem test_witness_SetmodeThenRenderIsBlank :
    ∀ n ∈ [(4 : Byte), 6],
      let s := launch [(0xB8000, 0xFF)] [(0x3D9, 0x2A)] 0 [encode (.setmode n), encode (.render (some 0))]
      (n = 4 ∨ n = 6) ∧ s.ports.wf ∧ s.requests = [] ∧ s.schedule = [] ∧
      s.queue = .op (encode (.setmode n)) :: .op (encode (.render (some 0))) :: [] ∧ HasTarget s 0 (image 467712) :=
  fun n hn => ⟨by simpa using hn, by show Memory.wf [(0x3D9, 0x2A)]; decide, rfl, rfl, rfl, launch_hasTarget _ _ _ _⟩

theorem test_witness_Pix2HoldsFourPixels : 0 % 4 = 0 ∧ 1 % 4 = 1 ∧ 318 % 4 = 2 ∧ 319 % 4 = 3 := by decide
/-- ScanlinesTileBothBanks: a last even row, the last odd row, the last byte. -/
theorem test_witness_ScanlinesTileBothBanks : 198 < 200 ∧ 198 % 2 = 0 ∧ 199 < 200 ∧ 199 % 2 = 1 ∧ 79 < 80 := by decide
theorem test_witness_CellAddressing :
    (40 = 40 ∨ 40 = 80) ∧ (80 = 40 ∨ 80 = 80) ∧ 199 < 200 ∧ 319 < 40 * 8 ∧ 639 < 80 * 8 := by decide
theorem test_witness_G320ColourIndex : 3 < 4 ∧ 3 ≠ 0 ∧ 0 < 4 := by decide
theorem test_witness_TableIndicesInRange : 3 < 4 := by decide

/-- BlinkExchangesTheCell: a blinking cell, and the two ways not to blink. -/
theorem test_witness_BlinkExchangesTheCell :
    (bit 0x20 5 = true ∧ 128 ≤ (0x80 : Byte).toNat) ∧ ¬(bit 0x20 5 = true ∧ 128 ≤ (0x7F : Byte).toNat) ∧
    ¬(bit 0xDF 5 = true ∧ 128 ≤ (0xFF : Byte).toNat) := by decide

theorem test_witness_UnusedControlBitsHaveNoEffect :
    (0xC1 : Byte).toNat % 64 = (0x01 : Byte).toNat % 64 ∧ (0xF1 : Byte).toNat % 16 = (0x01 : Byte).toNat % 16 ∧
    (0xFF : Byte).getLsbD 2 = (0x24 : Byte).getLsbD 2 ∧ (0xFF : Byte).getLsbD 5 = (0x24 : Byte).getLsbD 5 := by decide

/-- UnreadVramHasNoEffect: memories that differ just past what is read. -/
theorem test_witness_UnreadVramHasNoEffect :
    (∀ o, o < 8000 ∨ 8192 ≤ o ∧ o < 16192 → vram [(8000, 1), (16192, 1)] o = vram [] o) ∧
    (∀ o, o < 40 * 50 → vram [(2000, 1)] o = vram [] o) ∧ (∀ o, o < 80 * 50 → vram [(4000, 1)] o = vram [] o) := by
  refine ⟨fun o ho => ?_, fun o ho => ?_, fun o ho => ?_⟩ <;> simp only [vram, Memory.read] <;>
    (repeat' rw [if_neg (by omega)])

theorem test_witness_FrameIsAFunctionOfItsInputs :
    ∃ r t t' after after',
      routineOf (asked [] 4 0 0).latches (during [] 4 0 0).tables .renderG320 = some (4, r) ∧
      (InProgress (during [] 4 0 0) (asked [] 4 0 0) (image 467712) 4 ∧
        Undisturbed (during [] 4 0 0) (asked [] 4 0 0)) ∧
      (InProgress (during [(0x450, 7)] 4 0 0) (asked [(0x450, 7)] 4 0 0) (image 467712) 4 ∧
        Undisturbed (during [(0x450, 7)] 4 0 0) (asked [(0x450, 7)] 4 0 0)) ∧
      (asked [(0x450, 7)] 4 0 0).latches = (asked [] 4 0 0).latches ∧
      (during [(0x450, 7)] 4 0 0).tables = (during [] 4 0 0).tables ∧
      (∀ o, o < 16384 → (during [(0x450, 7)] 4 0 0).mem.read (0xB8000 + o) = (during [] 4 0 0).mem.read (0xB8000 + o)) ∧
      exec .renderG320 (during [] 4 0 0) = .next t ∧ exec .renderG320 (during [(0x450, 7)] 4 0 0) = .next t' ∧
      t.images[0]? = some after ∧ t'.images[0]? = some after' := by
  refine ⟨_, _, _, _, _, rfl, during_inProgress _ _ _ _, during_inProgress _ _ _ _, rfl, rfl, fun o ho => ?_, rfl, rfl,
    rfl, rfl⟩
  show Memory.read [(0x450, 7)] _ = Memory.read [] _
  simp only [Memory.read]
  rw [if_neg (by omega)]

/-- G320FrameDeterminesItsBytes: two video RAMs that differ only in a byte no row has. -/
theorem test_witness_G320FrameDeterminesItsBytes :
    ([0, 2, 4, 6].map (paletteAt tables.pal16)).Nodup ∧
    ∀ row col, row < 200 → col < 320 →
      (g320 ⟨4, 0, 0, 0⟩ tables).active (vram [(8000, 1)]) row col =
        (g320 ⟨4, 0, 0, 0⟩ tables).active (vram []) row col := by
  refine ⟨by decide, fun row col hr hc => ?_⟩
  have h : goff row (col / 4) ≠ 8000 := by
    rcases Nat.mod_two_eq_zero_or_one row with h | h <;>
      simp only [goff, Config.banks, h, Config.bankSize, Config.rowBytes] <;> omega
  simp only [g320, vram, Memory.read]
  rw [if_neg (Ne.symm h)]

theorem test_witness_TornReadsAreValuesHeld :
    ({ asked [] 4 0 0 with seen := [[(0xB8000, 1)], []] } : Request).seen ≠ [] := by decide

/-- The tables of these tests meet the spec's constraints. -/
theorem tables_sound : TablesSound tables :=
  ⟨by decide, by decide, ⟨85, 170, 255, by decide, by decide, by decide, rfl⟩, by decide⟩

/-- A state with both images of `launch`, sound requests and any queue and schedule has `Inv`. -/
theorem launch_inv {s : State} (hm : s.mem = []) (hp : s.ports = []) (ht : s.tables = tables)
    (hi : s.images = [image 467712, image 467712]) (hd : (s.requests.map Request.img).Nodup)
    (hr : ∀ q ∈ s.requests, q.raster = ⟨0, 0⟩ ∧ q.seen = [[]] ∧ q.img < 2) : Inv s := by
  refine ⟨by rw [hm]; decide, by rw [hm]; decide, by rw [hp]; decide, by rw [hp]; decide, ht ▸ tables_sound, ?_, hd, ?_⟩
  · intro img h
    rw [hi] at h
    obtain rfl : img = image 467712 := by simpa using h
    exact Nat.zero_le _
  · intro q hq
    obtain ⟨h1, h2, h3⟩ := hr q hq
    refine ⟨h1, by rw [h2, hm]; rfl, ⟨image 467712, ?_, Nat.le_refl _⟩, ?_⟩
    · rw [hi]
      obtain h | h : q.img = 0 ∨ q.img = 1 := by omega
      all_goals rw [h]; rfl
    · rw [h2]; decide

theorem torn_inv : Inv torn := launch_inv rfl rfl rfl rfl (by decide) (by decide)

/-- RequestSeesEveryHostStep, LatchesHoldDuringRequest: a request that stays over a host step, and one that starts. -/
theorem test_witness_request_stays :
    (Inv torn ∧ ∃ t q', step torn = .next t ∧ q' ∈ t.requests ∧ ∀ i l rest, torn.schedule ≠ .sample i l :: rest) ∧
    (let s := launch [] [] 4 [.hostop 6 [1]]
     Inv s ∧ ∃ t q', step s = .next t ∧ q' ∈ t.requests ∧ ∀ i l rest, s.schedule ≠ .sample i l :: rest) :=
  ⟨⟨torn_inv, _, _, rfl, List.mem_cons_self, fun _ _ _ h => by cases h⟩,
    launch_inv rfl rfl rfl rfl (by decide) (by decide), _, _, rfl, List.mem_cons_self, fun _ _ _ h => by cases h⟩

theorem test_witness_TornStartPairsNewModeWithOldColor :
    let s := { during [(0xB8000, 1)] 4 0 9 with
      schedule := [.host, .sample 0 .mode], queue := [.op (encode (.setmode 6))] }
    s.requests = [asked [(0xB8000, 1)] 4 0 9] ∧ s.schedule = [.host, .sample (asked [(0xB8000, 1)] 4 0 9).img .mode] ∧
    s.queue = .op (encode (.setmode 6)) :: [] ∧ Config.supportedMode 6 = true := ⟨rfl, rfl, rfl, by decide⟩

/-- RenderOperationsWriteOnlyTheirRequest, for a routine, the unsupported mode and RENDER; image 1 is not the request's. -/
theorem test_witness_RenderOperationsWriteOnlyTheirRequest :
    ((∃ l, (routineOf l (during [] 4 0 0).tables .renderG320).isSome = true) ∧
      ∃ t, exec .renderG320 (during [] 4 0 0) = .next t) ∧
    (∃ t, exec (.renderUnsupported 2) (during [] 2 0 0) = .next t) ∧
    (∃ t, exec (.render (some 0)) (launch [] [] 4 []) = .next t) ∧
    (∀ q, (during [] 4 0 0).requests.head? = some q → q.img ≠ 1) :=
  ⟨⟨⟨⟨4, 0, 0, 0⟩, rfl⟩, _, rfl⟩, ⟨_, rfl⟩, ⟨_, rfl⟩, fun _ h => by cases h; decide⟩

/-- TablesNeverChangeAndOnlyTheHostWritesKeyLatch: a step of the host's access, and another. -/
theorem test_witness_TablesNeverChangeAndOnlyTheHostWritesKeyLatch :
    (∃ t, step outNext = .next t) ∧
    ∃ t, step { launch [] [] 0 [] with queue := [.keyWrite 0x1E61] } = .next t := ⟨⟨_, rfl⟩, _, rfl⟩

theorem test_witness_ModeChangeZeroesVideoRam :
    let s := launch [(0xB8000, 1)] [(0x3D9, 1)] 0 [.hostop 4 [6]]
    s.ports.wf ∧ ∃ t, step s = .next t ∧ t.mode ≠ s.mode :=
  ⟨by show Memory.wf [(0x3D9, 1)]; decide, _, rfl, by decide⟩

/-- ImagesChangeAllOrNothing: a step that ends a request, with each result, the host's write, and one that leaves the images
alone. -/
theorem test_witness_ImagesChangeAllOrNothing :
    (Inv (during [] 4 0 0) ∧ ∃ t, step (during [] 4 0 0) = .next t) ∧
    (Inv (during [] 2 0 0) ∧ ∃ t, step (during [] 2 0 0) = .next t) ∧
    (let s := { launch [] [] 0 [] with queue := [.imageWrite 0 467711 7] }
     Inv s ∧ ∃ t, step s = .next t) ∧
    (Inv outNext ∧ ∃ t, step outNext = .next t) :=
  ⟨⟨launch_inv rfl rfl rfl rfl (by decide) (by decide), _, rfl⟩,
    ⟨launch_inv rfl rfl rfl rfl (by decide) (by decide), _, rfl⟩,
    ⟨launch_inv rfl rfl rfl rfl (by decide) (by decide), _, rfl⟩,
    ⟨launch_inv rfl rfl rfl rfl (by decide) (by decide), _, rfl⟩⟩

/-- HostReadsFinishedImagesOnly: the last pixel of an image with a request on the other one; an image with a request on it;
a position just outside, and zero dimensions. -/
theorem test_witness_HostReadsFinishedImagesOnly :
    ((during [] 0 0 0).images[1]? = some (image 467712) ∧ (∀ q ∈ (during [] 0 0 0).requests, q.img ≠ 1) ∧
      351 < (image 467712).width ∧ 231 < (image 467712).height) ∧
    ((during [] 0 0 0).images[0]? = some (image 467712) ∧ asked [] 0 0 0 ∈ (during [] 0 0 0).requests ∧
      (asked [] 0 0 0).img = 0) ∧
    (image 467712).width ≤ 352 ∧ ((image 467712).withSize 0 0).width ≤ 0 :=
  ⟨⟨rfl, by decide, by decide, by decide⟩, ⟨rfl, by decide, rfl⟩, by decide, by decide⟩

/-- HostOwnsItsImagesAndKeyLatch: the last byte of a free image and the first past it, and an image with a request on it. -/
theorem test_witness_HostOwnsItsImagesAndKeyLatch :
    ((launch [] [] 0 []).requests = [] ∧
      ({ launch [] [] 0 [] with queue := [.keyRead] } : State).queue = .keyRead :: []) ∧
    ((launch [] [] 0 []).images[0]? = some (image 467712) ∧ (∀ q ∈ (launch [] [] 0 []).requests, q.img ≠ 0) ∧
      467711 < (image 467712).capacity ∧ (image 467712).capacity ≤ 467712) ∧
    ((during [] 0 0 0).images[0]? = some (image 467712) ∧ asked [] 0 0 0 ∈ (during [] 0 0 0).requests ∧
      (asked [] 0 0 0).img = 0) :=
  ⟨⟨rfl, rfl⟩, ⟨rfl, by decide, by decide, by decide⟩, rfl, by decide, rfl⟩

/-- StepKeepsInv: a state with `Inv`, a request in progress and the host's turn, from which a step answers. -/
theorem test_witness_StepKeepsInv : Inv torn ∧ ∃ t, step torn = .next t := ⟨torn_inv, _, rfl⟩

theorem test_witness_ModeStaysSupported :
    ModeSupported torn ∧ (∃ t, step torn = .next t) ∧ torn.reply ≠ .result .unsupported :=
  ⟨⟨by decide, by decide⟩, ⟨_, rfl⟩, by decide⟩

end Sys2Proof.Tests
end

section
/-! PROOFS. The luma function and the gray conversion (R13, R163(b)). -/

namespace Sys2Proof.Machine

open Sys2Proof

/-- The weights of R13 add up to 1000, so no luma passes the largest channel value. -/
theorem luma_le_255 (c : RGB) : luma c ≤ 255 := by
  have hr := c.r.isLt
  have hg := c.g.isLt
  have hb := c.b.isLt
  rw [luma_eq]
  omega

/-- The same sum of the weights gives back the level of a colour whose channels agree. -/
theorem luma_of_equal_channels (v : Byte) : luma ⟨v, v, v⟩ = v.toNat := by
  rw [luma_eq]
  dsimp only
  omega

/-- `gray` cuts nothing off when it stores the luma in a byte. -/
@[simp] theorem toNat_ofNat_luma (c : RGB) : (BitVec.ofNat 8 (luma c)).toNat = luma c := by
  have hle := luma_le_255 c
  rw [BitVec.toNat_ofNat]
  omega

@[simp] theorem gray_r_toNat (c : RGB) : (gray c).r.toNat = luma c := toNat_ofNat_luma c

@[simp] theorem gray_g_toNat (c : RGB) : (gray c).g.toNat = luma c := toNat_ofNat_luma c

@[simp] theorem gray_b_toNat (c : RGB) : (gray c).b.toNat = luma c := toNat_ofNat_luma c

theorem gray_of_equal_channels (v : Byte) : gray ⟨v, v, v⟩ = ⟨v, v, v⟩ := by
  rw [gray, luma_of_equal_channels, grayLevel, BitVec.ofNat_toNat, BitVec.setWidth_eq]

/-- A gray conversion's result has equal channels by definition, so a second one leaves it. -/
theorem gray_gray (c : RGB) : gray (gray c) = gray c :=
  gray_of_equal_channels (BitVec.ofNat 8 (luma c))

/-- Settles O33: equal channels are kept by `gray`, and every result of `gray` has equal channels. -/
theorem grayOfGrayIsItself : Obligations.GrayOfGrayIsItself :=
  ⟨gray_of_equal_channels, gray_gray⟩

/-- Settles O32: the bound on the luma makes each channel of `gray` hold it exactly. -/
theorem lumaIsExactAndAByte : Obligations.LumaIsExactAndAByte := fun c =>
  ⟨luma_eq c, luma_le_255 c, gray_r_toNat c, gray_g_toNat c, gray_b_toNat c, by decide, by decide⟩

end Sys2Proof.Machine
end

section
/-! PROOFS. The byte spaces as data: the canonical form holds one list for each content (R21, R22; log 25). -/

namespace Sys2Proof.Machine

open Sys2Proof

theorem Memory.read_cons_self (c : Host.Cell) (m : Memory) : Memory.read (c :: m) c.1 = c.2 := by
  rw [Memory.read_cons, if_pos rfl]

/-- What a canonical list reads once its first entry is gone: 0 at that entry's address, the same elsewhere. -/
theorem Memory.read_of_wf_cons {c : Host.Cell} {m : Memory} (h : Memory.wf (c :: m)) (a : Nat) :
    m.read a = if a = c.1 then 0 else Memory.read (c :: m) a := by
  obtain ⟨hlt, -, -⟩ := Memory.wf_cons.1 h
  split
  · subst a
    exact Memory.read_of_lt hlt
  · rw [Memory.read_cons, if_neg (by omega)]

/-- The first entry of a canonical list can be read, so another that reads alike does not begin above it. -/
theorem Memory.head_le_of_read_eq {c d : Host.Cell} {m n : Memory} (hm : Memory.wf (c :: m)) (hn : Memory.wf (d :: n))
    (h : ∀ a, Memory.read (c :: m) a = Memory.read (d :: n) a) : d.1 ≤ c.1 := by
  obtain ⟨-, hc, -⟩ := Memory.wf_cons.1 hm
  obtain ⟨hlt, -, -⟩ := Memory.wf_cons.1 hn
  by_contra hcd
  have hzero : Memory.read (d :: n) c.1 = 0 :=
    Memory.read_of_lt (List.forall_mem_cons.2 ⟨by omega, fun e he => lt_trans (by omega) (hlt e he)⟩)
  exact hc (by rw [← Memory.read_cons_self c m, h, hzero])

/-- A canonical list that reads 0 everywhere has no entry. -/
theorem Memory.eq_nil_of_read_eq_zero {m : Memory} (hm : m.wf) (h : ∀ a, m.read a = 0) : m = [] := by
  cases m with
  | nil => rfl
  | cons c m =>
    obtain ⟨-, hc, -⟩ := Memory.wf_cons.1 hm
    exact absurd ((Memory.read_cons_self c m).symm.trans (h c.1)) hc

/-- Settles O12, by induction on one list: the first entries have one address, since neither can come before the other,
and cutting them off leaves canonical lists that still read alike. -/
theorem canonicalMemoriesReadingAlikeAreEqual : Obligations.CanonicalMemoriesReadingAlikeAreEqual := by
  intro m
  induction m with
  | nil => exact fun n _ hn h => (Memory.eq_nil_of_read_eq_zero hn fun a => (h a).symm).symm
  | cons c m ih =>
    intro n hm hn h
    cases n with
    | nil => exact Memory.eq_nil_of_read_eq_zero hm h
    | cons d n =>
      obtain ⟨-, -, hm'⟩ := Memory.wf_cons.1 hm
      obtain ⟨-, -, hn'⟩ := Memory.wf_cons.1 hn
      have haddr : c.1 = d.1 := le_antisymm (Memory.head_le_of_read_eq hn hm fun a => (h a).symm)
        (Memory.head_le_of_read_eq hm hn h)
      have hbyte : c.2 = d.2 := by
        rw [← Memory.read_cons_self c m, ← Memory.read_cons_self d n, h, haddr]
      have hrest : m = n := ih n hm' hn' fun a => by
        rw [Memory.read_of_wf_cons hm, Memory.read_of_wf_cons hn, h, haddr]
      rw [Prod.ext haddr hbyte, hrest]

end Sys2Proof.Machine
end

section
/-! PROOFS. What no step writes: the tables, and `KEYLATCH` but for the host's own access (R46, R29, R230). -/

namespace Sys2Proof.Machine

open Sys2Proof

/-- The two codes are the two bytes of `KEYLATCH` (R29). -/
theorem State.keyLatch_toNat (s : State) : s.keyLatch.toNat = 256 * s.keyScan.toNat + s.keyAscii.toNat := by
  have hlt := s.keyLatch.isLt
  rw [s.keyScan_eq, s.keyAscii_eq]
  simp only [BitVec.extractLsb'_toNat, Nat.shiftRight_eq_div_pow]
  omega

/-- A move of the host writes no table, and writes `KEYLATCH` only as the access to it. -/
theorem HostEffect.tables_keyLatch {s t : State} {m : HostMove} (h : HostEffect s m t) :
    t.tables = s.tables ∧ (t.keyLatch = s.keyLatch ∨ ∃ v, m = .keyWrite v ∧ t.keyLatch = v) := by
  cases h with
  | op _ _ he =>
    obtain ⟨htables, hkey⟩ := (exec_effect he).tables_keyLatch
    exact ⟨htables, .inl hkey⟩
  | keyWrite => exact ⟨rfl, .inr ⟨_, rfl, rfl⟩⟩
  | _ => exact ⟨rfl, .inl rfl⟩

/-- A step writes no table, and writes `KEYLATCH` only by the move at the head of the host's queue. -/
theorem Move.tables_keyLatch {s t : State} (h : Move s t) :
    t.tables = s.tables ∧ (t.keyLatch = s.keyLatch ∨ ∃ v rest, s.queue = .keyWrite v :: rest ∧ t.keyLatch = v) := by
  cases h with
  | idle | sample | idleDuring => exact ⟨rfl, .inl rfl⟩
  | dispatch _ _ _ he | dispatchNamed _ _ _ he =>
    obtain ⟨htables, hkey⟩ := (exec_effect he).tables_keyLatch
    exact ⟨htables, .inl hkey⟩
  | host _ hqueue he | during _ _ hqueue he =>
    obtain ⟨htables, hkey | ⟨v, rfl, hkey⟩⟩ := he.tables_keyLatch
    · exact ⟨htables, .inl hkey⟩
    · exact ⟨htables, .inr ⟨v, _, hqueue, hkey⟩⟩

/-- Settles O52: `Move.tables_keyLatch` for every case of a step, and the byte split of `KEYLATCH` in every state. -/
theorem tablesNeverChangeAndOnlyTheHostWritesKeyLatch :
    Obligations.TablesNeverChangeAndOnlyTheHostWritesKeyLatch := by
  intro s t h
  obtain ⟨htables, hkey⟩ := (step_move h).tables_keyLatch
  exact ⟨htables, hkey, t.keyLatch_toNat⟩

end Sys2Proof.Machine
end

section
/-! PROOFS. Supported modes (R25, R206): `MODE` and every `mode_l` stay numbers with a routine, so nothing raises
`Unsupported` (R228). -/

namespace Sys2Proof.Machine

open Sys2Proof Sys2Proof.Safety

/-- Only the argument of set-mode reaches `MODE`, and only `MODE` reaches a new request's `mode_l`. -/
theorem Effect.keeps_modeSupported {s t : State} {i : Instr} (h : Effect s i t) (hs : ModeSupported s) :
    ModeSupported t := by
  obtain ⟨hmode, hlatched⟩ := hs
  cases h with
  | setmode _ hn => exact ⟨hn, hlatched⟩
  | start => exact ⟨hmode, List.forall_mem_append.2 ⟨hlatched, List.forall_mem_singleton.2 hmode⟩⟩
  | unsupported | frame => exact ⟨hmode, fun q hq => hlatched q (List.mem_of_mem_tail hq)⟩
  | _ => exact ⟨hmode, hlatched⟩

/-- `Unsupported` needs a first request with an unsupported `mode_l`; every other operation answers something else. -/
theorem Effect.reply_ne_unsupported {s t : State} {i : Instr} (h : Effect s i t) (hs : ModeSupported s) :
    t.reply ≠ .result .unsupported := by
  cases h with
  | @unsupported m q img hm hd =>
    obtain ⟨hq, rfl, -⟩ := State.dispatched_ok.1 hd
    have hsupported := hs.2 q (List.mem_of_head? hq)
    exact absurd hsupported (by simp [hm])
  | _ => simp

/-- The accesses that the table has no operation for reach neither `MODE` nor a latch. -/
theorem HostEffect.keeps_modeSupported {s t : State} {m : HostMove} (h : HostEffect s m t) (hs : ModeSupported s) :
    ModeSupported t := by
  cases h with
  | op _ _ he => exact (exec_effect he).keeps_modeSupported hs
  | _ => exact hs

theorem HostEffect.reply_ne_unsupported {s t : State} {m : HostMove} (h : HostEffect s m t) (hs : ModeSupported s) :
    t.reply ≠ .result .unsupported := by
  cases h with
  | op _ _ he => exact (exec_effect he).reply_ne_unsupported hs
  | _ => simp

theorem State.bringForward_modeSupported {s : State} (hs : ModeSupported s) (k : Nat) :
    ModeSupported (s.bringForward k) :=
  ⟨hs.1, fun q hq => hs.2 q (State.mem_bringForward.1 hq)⟩

/-- What a request notes of `memory` leaves its latches alone. -/
theorem State.noteSeen_modeSupported {s : State} (hs : ModeSupported s) : ModeSupported s.noteSeen :=
  ⟨hs.1, List.forall_mem_map.2 fun q hq => by rw [Request.note_latches]; exact hs.2 q hq⟩

/-- A late sample of `mode_l` takes `MODE`; one of another latch leaves `mode_l` alone. -/
theorem State.resampled_modeSupported {s : State} (hs : ModeSupported s) {l : Latches} (name : LatchName)
    (hl : Config.supportedMode l.mode = true) : Config.supportedMode (s.resampled l name).mode = true := by
  cases name with
  | mode => exact hs.1
  | mc | cs | blink => exact hl

theorem State.sampleLatch_modeSupported {s : State} (hs : ModeSupported s) (k : Nat) (name : LatchName) :
    ModeSupported (s.sampleLatch k name) := by
  refine ⟨hs.1, List.forall_mem_map.2 fun q hq => ?_⟩
  split
  · exact State.resampled_modeSupported hs name (hs.2 q hq)
  · exact hs.2 q hq

/-- Every case of a step keeps the modes supported. -/
theorem Move.keeps_modeSupported {s t : State} (h : Move s t) (hs : ModeSupported s) : ModeSupported t := by
  cases h with
  | idle => exact hs
  | host _ _ he => exact he.keeps_modeSupported hs
  | dispatch _ _ _ he => exact (exec_effect he).keeps_modeSupported hs
  | dispatchNamed _ _ _ he => exact (exec_effect he).keeps_modeSupported (State.bringForward_modeSupported hs _)
  | sample => exact State.sampleLatch_modeSupported hs _ _
  | idleDuring => exact State.noteSeen_modeSupported hs
  | during _ _ _ he => exact State.noteSeen_modeSupported (he.keeps_modeSupported hs)

/-- A step without an operation keeps the reply; a step with one answers no `Unsupported`. -/
theorem Move.reply_ne_unsupported {s t : State} (h : Move s t) (hs : ModeSupported s)
    (hr : s.reply ≠ .result .unsupported) : t.reply ≠ .result .unsupported := by
  cases h with
  | idle | sample | idleDuring => exact hr
  | host _ _ he | during _ _ _ he => exact he.reply_ne_unsupported hs
  | dispatch _ _ _ he => exact (exec_effect he).reply_ne_unsupported hs
  | dispatchNamed _ _ _ he => exact (exec_effect he).reply_ne_unsupported (State.bringForward_modeSupported hs _)

/-- Settles O59: both halves by the cases of a step. -/
theorem modeStaysSupported : Obligations.ModeStaysSupported := fun _ _ hs h =>
  ⟨(step_move h).keeps_modeSupported hs, (step_move h).reply_ne_unsupported hs⟩

end Sys2Proof.Machine
end

section
/-! PROOFS. The start of a render request and its refusals (R120, R35, R233). -/

namespace Sys2Proof.Machine

open Sys2Proof

/-- RENDER of an image the host owns: refused while a request is on it or when it is too small, else started. -/
theorem exec_render_of_owned {s : State} {i : Nat} {img : Image} (h : s.images[i]? = some img) :
    exec (.render (some i)) s =
      if s.inUse i then .refused .requestInProgress
      else if 467712 ≤ img.capacity then .next (s.openRequest i)
      else .refused .imageTooSmall := by
  simp only [exec, execRender, h, imgCap_eq]

/-- RENDER of an image the host does not own (log 21). -/
theorem exec_render_of_not_owned {s : State} {i : Nat} (h : s.images[i]? = none) :
    exec (.render (some i)) s = .refused .noSuchImage := by
  simp only [exec, execRender, h]

/-- An image is in use when a request in progress names it. -/
theorem State.inUse_of_mem {s : State} {q : Request} (h : q ∈ s.requests) : s.inUse q.img = true :=
  List.any_eq_true.2 ⟨q, h, beq_self_eq_true q.img⟩

/-- Settles O18: a free image of sufficient capacity leaves `State.openRequest`. -/
theorem renderSamplesTheLatches : Obligations.RenderSamplesTheLatches := by
  intro s i img himg hcap hfree
  rw [exec_render_of_owned himg, State.inUse_eq_false.2 hfree, if_neg Bool.false_ne_true, if_pos hcap]
  rfl

/-- Settles O20: one branch of RENDER for each refusal. -/
theorem renderRefusals : Obligations.RenderRefusals := by
  refine fun s i => ⟨fun img himg hfree hcap => ?tooSmall, exec_render_of_not_owned, ?busy⟩
  case tooSmall =>
    rw [exec_render_of_owned himg, State.inUse_eq_false.2 hfree, if_neg Bool.false_ne_true, if_neg (by omega)]
  case busy =>
    rintro img q himg hq rfl
    rw [exec_render_of_owned himg, if_pos (State.inUse_of_mem hq)]

end Sys2Proof.Machine
end

section
/-! PROOFS. The supplied palette's gray levels (R40, R41; log 15), and the reset state (R50, R44; log 12). -/

namespace Sys2Proof.Machine

open Sys2Proof Sys2Proof.Safety

/-- The gray level of each entry of R40's table. -/
theorem pal16Default_luma : pal16Default.toList.map luma =
    [0, 19, 99, 119, 50, 70, 100, 170, 85, 104, 184, 204, 135, 155, 235, 255] := by decide

theorem pal16Default_luma_nodup : (pal16Default.toList.map luma).Nodup := by
  rw [pal16Default_luma]
  decide

/-- Settles O34: different levels come from different colours. -/
theorem defaultGrayLevels : Obligations.DefaultGrayLevels :=
  ⟨pal16Default_luma, pal16Default_luma_nodup, pal16Default_luma_nodup.of_map luma⟩

/-- Each level of the gray set at reset leaves room below 256 for the brighter ones (R44), whatever the OPEN constants. -/
theorem m5Gray_levels_rise : m5GrayLow < m5GrayMedium ∧ m5GrayMedium < m5GrayWhite ∧ m5GrayWhite < 256 := by
  have hlow : m5GrayLow < 254 := Nat.mod_lt _ (by decide)
  have hmedium : m5GrayMedium < 255 := by
    have := Nat.mod_lt (Config.m5GrayRaw 2) (show 254 - m5GrayLow > 0 by omega)
    unfold m5GrayMedium
    omega
  have hwhite : m5GrayWhite < 256 := by
    have := Nat.mod_lt (Config.m5GrayRaw 3) (show 255 - m5GrayMedium > 0 by omega)
    unfold m5GrayWhite
    omega
  refine ⟨?_, ?_, hwhite⟩
  · unfold m5GrayMedium
    omega
  · unfold m5GrayWhite
    omega

/-- The tables at reset meet the spec's constraints (R6, R40, R44). -/
theorem initial_tablesSound : TablesSound Tables.initial := by
  obtain ⟨hlow, hmedium, hwhite⟩ := m5Gray_levels_rise
  exact ⟨rfl, rfl, ⟨_, _, _, hlow, hmedium, hwhite, rfl⟩, rfl⟩

/-- Settles O58: both byte spaces are empty, no request is in progress, and nothing is drawn in the one image. -/
theorem invHoldsAtReset : Obligations.InvHoldsAtReset where
  memWf := Memory.wf_nil
  memInside := List.forall_mem_nil _
  portsWf := Memory.wf_nil
  portsInside := List.forall_mem_nil _
  tables := initial_tablesSound
  images := List.forall_mem_singleton.2 (Nat.zero_le _)
  distinct := List.nodup_nil
  requests := List.forall_mem_nil _

end Sys2Proof.Machine
end

section
/-! PROOFS. What each request in progress has seen of `memory` (R73(b), R120; log 5). -/

namespace Sys2Proof.Safety

open Sys2Proof Sys2Proof.Machine

/-- Under `Inv` the latest memory a request in progress has seen is the present one. -/
theorem Inv.seen_head {s : State} (hs : Inv s) {q : Request} (hq : q ∈ s.requests) : q.seen.head? = some s.mem := by
  obtain ⟨-, hhead, -, -⟩ := hs.requests q hq
  exact hhead

end Sys2Proof.Safety

namespace Sys2Proof.Machine

open Sys2Proof Sys2Proof.Safety

/-- Settles O47: the moment a read draws is an index below the number of memories the request has seen. -/
theorem tornReadsAreValuesHeld : Obligations.TornReadsAreValuesHeld := by
  intro s q x y o hne
  have hlt : Config.tornDraw s.draws x y o % q.seen.length < q.seen.length :=
    Nat.mod_lt _ (List.length_pos_of_ne_nil hne)
  refine ⟨q.seen[Config.tornDraw s.draws x y o % q.seen.length], List.getElem_mem hlt, ?_⟩
  rw [State.vramSeen, List.getElem?_eq_getElem hlt, Option.getD_some]

/-! ## The operations the dispatcher selects -/

/-- Every row of R92 selects an operation of format `MODE8`. -/
theorem encode_of_mem_modeRows {row : ModeRow} (h : row ∈ modeRows) (m : Byte) :
    ∃ m', encode (row.op m) = .mode8 m' := by
  simp only [modeRows, List.mem_cons, List.not_mem_nil, or_false] at h
  rcases h with rfl | rfl | rfl | rfl | rfl | rfl | rfl | rfl | rfl | rfl | rfl | rfl <;> exact ⟨_, rfl⟩

/-- The dispatcher selects an operation of format `MODE8` (R92, R121). -/
theorem encode_of_decodeMode8 {m : Byte} {i : Instr} (h : decodeMode8 m = .ok i) : ∃ m', encode i = .mode8 m' := by
  unfold decodeMode8 at h
  split at h
  · rename_i row hrow
    cases h
    exact encode_of_mem_modeRows (List.mem_of_find?_eq_some hrow) m
  · cases h

/-- The set-mode command has no word of format `MODE8` (R93, R102). -/
theorem encode_ne_mode8_of_setmodeArgument {i : Instr} {n : Byte} (h : setmodeArgument i = some n) (m : Byte) :
    encode i ≠ .mode8 m := by
  cases i with
  | setmode0 | setmode1 | setmode4 | setmode5 | setmode6 | setmode => nofun
  | _ => cases h

/-- A `MODE8` operation writes no `memory` and ends the first request (R230, R233). -/
theorem Effect.mem_requests_of_mode8 {s t : State} {i : Instr} {m : Byte} (h : Effect s i t)
    (hi : encode i = .mode8 m) : t.mem = s.mem ∧ t.requests = s.requests.tail := by
  cases h with
  | unsupported | frame => exact ⟨rfl, rfl⟩
  | setmode hn => exact absurd hi (encode_ne_mode8_of_setmodeArgument hn m)
  | _ => cases hi

/-! ## Where the requests after a step come from -/

/-- Every request an operation leaves was in progress before, or is the one a RENDER has just started. -/
theorem Effect.request_origin {s t : State} {i : Instr} (h : Effect s i t) {q' : Request} (hq' : q' ∈ t.requests) :
    q' ∈ s.requests ∨ (s.inUse q'.img = false ∧ q' = s.newRequest q'.img ∧ t.mem = s.mem) := by
  rcases h.request_cases with ⟨j, img, -, hfree, -, rfl⟩ | ⟨m, q, img, -, htail, -⟩ | ⟨hsame, -⟩
  · rw [State.openRequest_requests, List.mem_append, List.mem_singleton] at hq'
    rcases hq' with hold | rfl
    · exact .inl hold
    · exact .inr ⟨hfree, rfl, rfl⟩
  · exact .inl (List.mem_of_mem_tail (htail ▸ hq'))
  · exact .inl (hsame ▸ hq')

/-- The same of a move of the host. -/
theorem HostEffect.request_origin {s t : State} {m : HostMove} (h : HostEffect s m t) {q' : Request}
    (hq' : q' ∈ t.requests) :
    q' ∈ s.requests ∨ (s.inUse q'.img = false ∧ q' = s.newRequest q'.img ∧ t.mem = s.mem) := by
  cases h with
  | op _ _ he => exact (exec_effect he).request_origin hq'
  | _ => exact .inl hq'

/-- A request that has just seen `m` notes nothing. -/
theorem Request.note_of_head {q : Request} {m : Memory} (h : q.seen.head? = some m) : q.note m = q := if_pos h

/-- What a request has seen after noting `m'`, when the last it saw was `m` (R73(b)). -/
theorem Request.note_seen_of_head {q : Request} {m : Memory} (h : q.seen.head? = some m) (m' : Memory) :
    (q.note m').seen = if m' = m then q.seen else m' :: q.seen := by
  rw [Request.note_seen, h]
  simp only [Option.some.injEq, eq_comm]

/-- `q'` is a request of `s` that stays, in a state that holds `m` then: its image and raster position are kept, and it
has seen `m` if that is new. -/
def StaysIn (s : State) (m : Memory) (q' : Request) : Prop :=
  ∃ q ∈ s.requests, q'.img = q.img ∧ q'.raster = q.raster ∧
    q'.seen = if m = s.mem then q.seen else m :: q.seen

theorem StaysIn.of_mem {s : State} {q : Request} (h : q ∈ s.requests) : StaysIn s s.mem q :=
  ⟨q, h, rfl, rfl, (if_pos rfl).symm⟩

theorem StaysIn.of_note {s : State} {q : Request} (h : q ∈ s.requests) (hq : q.seen.head? = some s.mem) (m : Memory) :
    StaysIn s m (q.note m) :=
  ⟨q, h, Request.note_img q m, Request.note_raster q m, Request.note_seen_of_head hq m⟩

/-- A late sample changes a latch only (log 6). -/
theorem State.sampleLatch_staysIn {s : State} {k : Nat} {l : LatchName} {q' : Request}
    (h : q' ∈ (s.sampleLatch k l).requests) : StaysIn s s.mem q' := by
  rw [State.sampleLatch_requests, List.mem_map] at h
  obtain ⟨q, hq, rfl⟩ := h
  refine ⟨q, hq, ?_⟩
  split <;> exact ⟨rfl, rfl, (if_pos rfl).symm⟩

/-- A request after a step stays or has just started: a host step notes the memory it leaves, and the renderer's turns
and late samples leave the memory alone. -/
theorem Move.request_origin {s t : State} (h : Move s t) (hs : Inv s) {q' : Request} (hq' : q' ∈ t.requests) :
    StaysIn s t.mem q' ∨ (s.inUse q'.img = false ∧ q' = s.newRequest q'.img) := by
  cases h with
  | idle => exact .inl (.of_mem hq')
  | host hnone _ he =>
    rcases he.request_origin hq' with hold | ⟨hfree, hnew, -⟩
    · exact absurd hold (by simp [hnone])
    · exact .inr ⟨hfree, hnew⟩
  | dispatch _ _ hi he =>
    obtain ⟨m, hm⟩ := encode_of_decodeMode8 hi
    obtain ⟨hmem, htail⟩ := (exec_effect he).mem_requests_of_mode8 hm
    exact .inl (hmem ▸ .of_mem (List.mem_of_mem_tail (htail ▸ hq')))
  | dispatchNamed _ _ hi he =>
    obtain ⟨m, hm⟩ := encode_of_decodeMode8 hi
    obtain ⟨hmem, htail⟩ := (exec_effect he).mem_requests_of_mode8 hm
    have hold := State.mem_bringForward.1 (List.mem_of_mem_tail (htail ▸ hq'))
    exact .inl (hmem ▸ .of_mem hold)
  | sample => exact .inl (State.sampleLatch_staysIn hq')
  | idleDuring =>
    obtain ⟨q, hq, rfl⟩ := List.mem_map.1 hq'
    exact .inl (.of_note hq (hs.seen_head hq) s.mem)
  | @during m rest sched u _ _ _ he =>
    obtain ⟨q, hq, rfl⟩ := List.mem_map.1 hq'
    rcases he.request_origin hq with hold | ⟨hfree, hnew, hmem⟩
    · exact .inl (.of_note hold (hs.seen_head hold) u.mem)
    · have hhead : q.seen.head? = some u.mem := by rw [hnew, hmem]; rfl
      rw [Request.note_of_head hhead]
      exact .inr ⟨hfree, hnew⟩

/-- Settles O48, by the cases of a step. -/
theorem requestSeesEveryHostStep : Obligations.RequestSeesEveryHostStep :=
  fun _ _ hs h _ hq' => (step_move h).request_origin hs hq'

end Sys2Proof.Machine
end

section
/-! PROOFS. Every step keeps `Inv`: canonical memory, sound tables, image capacity and the requests (R60, R35, R46, R33,
R233). A host step during a request is followed by `State.noteSeen`, which restores what `Inv` says of `Request.seen`.
-/

namespace Sys2Proof.Safety

open Sys2Proof Sys2Proof.Machine

/-! ## Fields outside `Inv`, and requests reordered or ended -/

/-- `Inv` speaks of five fields only. -/
theorem Inv.of_fields_eq {s t : State} (hs : Inv s) (hmem : t.mem = s.mem) (hports : t.ports = s.ports)
    (htables : t.tables = s.tables) (himages : t.images = s.images) (hrequests : t.requests = s.requests) : Inv t where
  memWf := hmem ▸ hs.memWf
  memInside := hmem ▸ hs.memInside
  portsWf := hports ▸ hs.portsWf
  portsInside := hports ▸ hs.portsInside
  tables := htables ▸ hs.tables
  images := himages ▸ hs.images
  distinct := hrequests ▸ hs.distinct
  requests := by
    rw [hrequests, hmem]
    unfold HasTarget
    rw [himages]
    exact hs.requests

/-- Requests may be reordered and ended. -/
theorem Inv.withRequests {s : State} (hs : Inv s) {l : List Request} (hsub : ∀ q ∈ l, q ∈ s.requests)
    (hdistinct : (l.map Request.img).Nodup) : Inv { s with requests := l } :=
  { hs with
    distinct := hdistinct
    requests := fun q hq => hs.requests q (hsub q hq) }

/-- The moves and turns still to come may be any. -/
theorem Inv.withComing {s : State} (hs : Inv s) (queue : List HostMove) (schedule : List Turn) :
    Inv { s with queue := queue, schedule := schedule } :=
  hs.of_fields_eq rfl rfl rfl rfl rfl

theorem Inv.bringForward {s : State} (hs : Inv s) (k : Nat) : Inv (s.bringForward k) :=
  hs.withRequests (fun _ => State.mem_bringForward.1) <|
    (((s.bringForward_perm k).map Request.img).nodup_iff).2 hs.distinct

/-- A late sample changes latches only, of which `Inv` says nothing (log 6). -/
theorem Inv.sampleLatch {s : State} (hs : Inv s) (k : Nat) (l : LatchName) : Inv (s.sampleLatch k l) :=
  { hs with
    distinct := by
      have himg : (s.sampleLatch k l).requests.map Request.img = s.requests.map Request.img := by
        rw [State.sampleLatch_requests, List.map_map]
        refine List.map_congr_left fun q _ => ?_
        simp only [Function.comp_apply]
        split <;> rfl
      exact himg ▸ hs.distinct
    requests := List.forall_mem_map.2 fun q hq => by
      have hkept := hs.requests q hq
      split <;> exact hkept }

/-! ## Noting what `memory` holds -/

/-- Requests that have just seen the present memory note nothing. -/
theorem noteSeen_eq_self {s : State} (h : ∀ q ∈ s.requests, q.seen.head? = some s.mem) : s.noteSeen = s := by
  have hmap : s.requests.map (fun q => q.note s.mem) = s.requests :=
    (List.map_congr_left fun q hq => Request.note_of_head (h q hq)).trans (List.map_id' _)
  rw [State.noteSeen, hmap]

theorem Inv.noteSeen {s : State} (hs : Inv s) : Inv s.noteSeen := by
  rw [noteSeen_eq_self fun _ => hs.seen_head]
  exact hs

/-- Noting keeps the memories a request has seen canonical and inside their space. -/
theorem forall_mem_note_seen {q : Request} {m : Memory} {P : Memory → Prop} (hseen : ∀ m' ∈ q.seen, P m')
    (hm : P m) : ∀ m' ∈ (q.note m).seen, P m' := by
  rw [Request.note_seen]
  split
  · exact hseen
  · exact List.forall_mem_cons.2 ⟨hm, hseen⟩

/-- A write inside its space keeps a canonical memory one of that space. -/
theorem wf_inside_write {m : Memory} {size a : Nat} (h : m.wf ∧ m.inside size) (ha : a < size) (v : Byte) :
    (m.write a v).wf ∧ (m.write a v).inside size :=
  ⟨Memory.wf_write h.1 a v, Memory.inside_write h.2 ha v⟩

/-- Clearing a range keeps a canonical memory one of its space. -/
theorem wf_inside_clearRange {m : Memory} {n : Nat} (h : m.wf ∧ m.inside n) (base size : Nat) :
    (m.clearRange base size).wf ∧ (m.clearRange base size).inside n :=
  ⟨Memory.wf_clearRange h.1 base size, Memory.inside_clearRange h.2 base size⟩

/-- A change of memory or ports that keeps them canonical and inside their spaces keeps `Inv` once it is noted. -/
theorem Inv.noteSeen_of_write {s t : State} (hs : Inv s) (hmem : t.mem.wf ∧ t.mem.inside Config.memSize)
    (hports : t.ports.wf ∧ t.ports.inside Config.portCount) (htables : t.tables = s.tables)
    (himages : t.images = s.images) (hrequests : t.requests = s.requests) : Inv t.noteSeen where
  memWf := hmem.1
  memInside := hmem.2
  portsWf := hports.1
  portsInside := hports.2
  tables := htables ▸ hs.tables
  images := himages ▸ hs.images
  distinct := by
    have himg : t.noteSeen.requests.map Request.img = s.requests.map Request.img := by
      simp [hrequests, Function.comp_def]
    exact himg ▸ hs.distinct
  requests := List.forall_mem_map.2 fun q hq => by
    obtain ⟨hraster, -, ⟨img, htarget⟩, hseen⟩ := hs.requests q (hrequests ▸ hq)
    have htarget' : HasTarget t q.img img := by
      rw [HasTarget, himages]
      exact htarget
    exact ⟨(Request.note_raster q t.mem).trans hraster, Request.note_head q t.mem,
      ⟨img, (Request.note_img q t.mem).symm ▸ htarget'⟩, forall_mem_note_seen hseen hmem⟩

/-! ## Images -/

/-- An image replaced by one of its own capacity leaves every target a target. -/
theorem HasTarget.set {s : State} {i j : Nat} {img after target : Image} (htarget : HasTarget s j target)
    (himg : s.images[i]? = some img) (hcap : after.capacity = img.capacity) :
    ∃ target', HasTarget { s with images := s.images.set i after } j target' := by
  obtain ⟨hj, hlarge⟩ := htarget
  by_cases hij : i = j
  · subst hij
    obtain rfl : img = target := Option.some.inj (himg.symm.trans hj)
    have hlt : i < s.images.length := (List.getElem?_eq_some_iff.1 himg).1
    exact ⟨after, List.getElem?_set_self hlt, hcap ▸ hlarge⟩
  · exact ⟨target, (List.getElem?_set_ne hij).trans hj, hlarge⟩

/-- An image may be replaced by one of its own capacity that holds no more bytes than that. -/
theorem Inv.setImage {s : State} (hs : Inv s) {i : Nat} {img after : Image} (himg : s.images[i]? = some img)
    (hcap : after.capacity = img.capacity) (hdrawn : after.drawn.length ≤ after.capacity) :
    Inv { s with images := s.images.set i after } :=
  { hs with
    images := fun x hx => (List.mem_or_eq_of_mem_set hx).elim (hs.images x) fun h => h ▸ hdrawn
    requests := fun q hq => by
      obtain ⟨hraster, hhead, ⟨target, htarget⟩, hseen⟩ := hs.requests q hq
      exact ⟨hraster, hhead, htarget.set himg hcap, hseen⟩ }

/-- An image the host owns holds no more bytes than its capacity (R35). -/
theorem Inv.drawn_le {s : State} (hs : Inv s) {i : Nat} {img : Image} (himg : s.images[i]? = some img) :
    img.drawn.length ≤ img.capacity :=
  hs.images img (List.mem_of_getElem? himg)

theorem Inv.putImage {s : State} (hs : Inv s) {i : Nat} {img after : Image} (himg : s.ownImage i = .ok img)
    (hcap : after.capacity = img.capacity) (hdrawn : after.drawn.length ≤ after.capacity) :
    Inv (s.putImage i after) := by
  obtain ⟨hi, -⟩ := State.ownImage_ok.1 himg
  exact (hs.setImage hi hcap hdrawn).of_fields_eq rfl rfl rfl rfl rfl

/-! ## The start and the end of a request -/

/-- A request that starts on a free image of sufficient capacity meets what `Inv` asks of it (R120, R35, R233). -/
theorem Inv.openRequest {s : State} (hs : Inv s) {i : Nat} {img : Image} (hfree : s.inUse i = false)
    (htarget : HasTarget s i img) : Inv (s.openRequest i) :=
  { hs with
    distinct := by
      have hnew : i ∉ s.requests.map Request.img := by
        simpa only [List.mem_map, not_exists, not_and] using State.inUse_eq_false.1 hfree
      rw [State.openRequest_requests, List.map_append]
      exact List.concat_eq_append ▸ hs.distinct.concat hnew
    requests := List.forall_mem_append.2 ⟨hs.requests, List.forall_mem_singleton.2
      ⟨rfl, rfl, ⟨img, htarget⟩, List.forall_mem_singleton.2 ⟨hs.memWf, hs.memInside⟩⟩⟩ }

/-- The first request may end with its image replaced by one of the same capacity. -/
theorem Inv.closeRequest {s : State} (hs : Inv s) {i : Nat} {img after : Image} (himg : s.images[i]? = some img)
    (hcap : after.capacity = img.capacity) (hdrawn : after.drawn.length ≤ after.capacity) (r : Result) :
    Inv (s.closeRequest i after r) := by
  have hdistinct : (s.requests.tail.map Request.img).Nodup := List.map_tail ▸ hs.distinct.tail
  exact ((hs.setImage himg hcap hdrawn).withRequests (fun _ => List.mem_of_mem_tail) hdistinct).of_fields_eq
    rfl rfl rfl rfl rfl

/-- The size of every frame (R131). -/
theorem routineOf_size {l : Latches} {t : Tables} {i : Instr} {m : Byte} {r : Routine}
    (h : routineOf l t i = some (m, r)) : (r.width = 352 ∨ r.width = 672) ∧ r.height = 232 := by
  cases i with
  | renderT40 | renderT80 | renderG320 | renderG320M5 | renderG640 =>
    cases h
    simp [Routine.width_eq, Routine.height_eq, Config.columnsT40, Config.columnsT80]
  | _ => cases h

/-- No frame is larger than `IMG_CAP` (R35). -/
theorem routineOf_frame_le {l : Latches} {t : Tables} {i : Instr} {m : Byte} {r : Routine}
    (h : routineOf l t i = some (m, r)) : 3 * (r.width * r.height) ≤ Config.imgCap := by
  obtain ⟨hwidth, hheight⟩ := routineOf_size h
  rw [imgCap_eq, hheight]
  omega

/-- A frame drawn from the first position fits in an image of `IMG_CAP` bytes. -/
theorem framed_drawn_le {img : Image} {r : Routine} (hdrawn : img.drawn.length ≤ img.capacity)
    (hframe : 3 * (r.width * r.height) ≤ img.capacity) (aspect : Nat) (pix : Nat → Nat → RGB) :
    (img.framed r aspect ⟨0, 0⟩ pix).drawn.length ≤ img.capacity := by
  obtain ⟨-, -, -, -, -, -, -, hlength⟩ := img.framed_spec r aspect pix
  rw [hlength]
  exact max_le hdrawn hframe

theorem Inv.afterFrame {s : State} (hs : Inv s) {m m' : Byte} {q : Request} {img : Image} {i : Instr} {r : Routine}
    (hd : s.dispatched m = .ok (q, img)) (hr : routineOf q.latches s.tables i = some (m', r)) :
    Inv (s.afterFrame q img r) := by
  obtain ⟨hq, -, himg, hcap⟩ := State.dispatched_ok.1 hd
  obtain ⟨hraster, -⟩ := hs.requests q (List.mem_of_head? hq)
  unfold State.afterFrame
  rw [hraster]
  have hdrawn := framed_drawn_le (hs.drawn_le himg) ((routineOf_frame_le hr).trans hcap) s.tables.aspect
    fun x y => r.pixel (s.vramSeen q x y) x y
  exact (hs.closeRequest himg (after := img.framed r s.tables.aspect ⟨0, 0⟩ _) rfl hdrawn .ok).of_fields_eq
    rfl rfl rfl rfl rfl

theorem Inv.raiseUnsupported {s : State} (hs : Inv s) {m : Byte} {q : Request} {img : Image}
    (hd : s.dispatched m = .ok (q, img)) : Inv (s.raiseUnsupported q img) := by
  obtain ⟨-, -, himg, -⟩ := State.dispatched_ok.1 hd
  have hdrawn := hs.drawn_le himg
  exact hs.closeRequest himg (after := img.withSize 0 0) rfl hdrawn .unsupported

/-! ## Every operation, every move of the host, every step -/

/-- The ports after a set-mode are canonical and inside their space (R206, R22). -/
theorem Inv.setMode_ports {s : State} (hs : Inv s) (n : Byte) :
    (s.setMode n).ports.wf ∧ (s.setMode n).ports.inside Config.portCount := by
  have hcs := wf_inside_write ⟨hs.portsWf, hs.portsInside⟩ (a := Config.csPort) (by decide) 0
  rw [State.setMode_ports]
  split
  · exact wf_inside_write hcs (by decide) _
  · exact hcs

/-- Every operation keeps `Inv` once the requests have noted the memory it leaves. -/
theorem Inv.noteSeen_of_effect {s t : State} {i : Instr} (hs : Inv s) (h : Effect s i t) : Inv t.noteSeen := by
  have hmem := And.intro hs.memWf hs.memInside
  have hports := And.intro hs.portsWf hs.portsInside
  cases h with
  | poke ha => exact hs.noteSeen_of_write (wf_inside_write hmem ha _) hports rfl rfl rfl
  | portOut hp => exact hs.noteSeen_of_write hmem (wf_inside_write hports hp _) rfl rfl rfl
  | setmode => exact hs.noteSeen_of_write (wf_inside_clearRange hmem _ _) (hs.setMode_ports _) rfl rfl rfl
  | peek | portIn | blink | noTarget => exact hs.noteSeen_of_write hmem hports rfl rfl rfl
  | start hfree htarget => exact (hs.openRequest hfree htarget).noteSeen
  | unsupported _ hd => exact (hs.raiseUnsupported hd).noteSeen
  | frame hd hr => exact (hs.afterFrame hd hr).noteSeen

/-- The same of every move of the host; a byte written below the capacity stays within it (R35). -/
theorem Inv.noteSeen_of_hostEffect {s t : State} {m : HostMove} (hs : Inv s) (h : HostEffect s m t) :
    Inv t.noteSeen := by
  cases h with
  | op _ _ he => exact hs.noteSeen_of_effect (exec_effect he)
  | imageWrite himg hk =>
    obtain ⟨hi, -⟩ := State.ownImage_ok.1 himg
    have hdrawn := hs.drawn_le hi
    refine Inv.noteSeen (hs.putImage himg rfl ?_)
    rw [Image.withByte_length, Image.withByte_capacity]
    omega
  | fieldsWrite himg =>
    obtain ⟨hi, -⟩ := State.ownImage_ok.1 himg
    have hdrawn := hs.drawn_le hi
    exact Inv.noteSeen (hs.putImage himg rfl hdrawn)
  | keyWrite | keyRead | imageRead | fieldsRead => exact Inv.noteSeen (hs.of_fields_eq rfl rfl rfl rfl rfl)

/-- With no request in progress there is nothing to note: a request that has just started has seen the memory. -/
theorem Inv.of_hostEffect_idle {s t : State} {m : HostMove} (hs : Inv s) (hnone : s.requests = [])
    (h : HostEffect s m t) : Inv t := by
  have hnoted : t.noteSeen = t := noteSeen_eq_self fun q hq => by
    rcases h.request_origin hq with hold | ⟨-, hnew, hmem⟩
    · exact absurd hold (by simp [hnone])
    · rw [hnew, hmem]
      rfl
  exact hnoted ▸ hs.noteSeen_of_hostEffect h

/-- An operation the dispatcher selects leaves the memory alone, so there is nothing to note. -/
theorem Inv.of_dispatched {s t : State} {m : Byte} {i : Instr} (hs : Inv s) (hi : decodeMode8 m = .ok i)
    (he : exec i s = .next t) : Inv t := by
  obtain ⟨m', hm'⟩ := encode_of_decodeMode8 hi
  obtain ⟨hmem, htail⟩ := (exec_effect he).mem_requests_of_mode8 hm'
  have hnoted : t.noteSeen = t := noteSeen_eq_self fun q hq =>
    hmem ▸ hs.seen_head (List.mem_of_mem_tail (htail ▸ hq))
  exact hnoted ▸ hs.noteSeen_of_effect (exec_effect he)

/-- Every case of a step keeps `Inv`. -/
theorem Inv.of_move {s t : State} (hs : Inv s) (h : Move s t) : Inv t := by
  cases h with
  | idle => exact hs
  | @host _ rest _ hnone _ he => exact (hs.withComing rest s.schedule).of_hostEffect_idle hnone he
  | dispatch _ _ hi he => exact hs.of_dispatched hi he
  | @dispatchNamed _ k _ sched _ _ _ hi he => exact ((hs.withComing s.queue sched).bringForward k).of_dispatched hi he
  | @sample k l sched => exact (hs.withComing s.queue sched).sampleLatch k l
  | @idleDuring sched => exact (hs.withComing s.queue sched).noteSeen
  | @during _ rest sched _ _ _ _ he => exact (hs.withComing rest sched).noteSeen_of_hostEffect he

/-- Settles O57, by the cases of a step. -/
theorem stepKeepsInv : Obligations.StepKeepsInv := fun _ _ hs h => hs.of_move (step_move h)

end Sys2Proof.Safety
end

section
/-! PROOFS. The host's turn, with no request in progress and during one (R70, R73, R105), and the runs of host operations
over two steps: a load after a store (R70), and a torn start (R73(a), R207). -/

namespace Sys2Proof.Machine

open Sys2Proof

/-! ## The words of the host's operations (R93, R102) -/

/-- A byte or a bit in its own field is that operand. -/
@[simp] theorem operandField_toNat {width : Nat} (v : BitVec width) (op : BitVec width → Instr) :
    operandField width v.toNat op = .ok (op v) := by
  rw [operandField, if_pos v.isLt, BitVec.ofNat_toNat, BitVec.setWidth_eq]

theorem decode_encode_poke (a : Nat) (v : Byte) : decode (encode (.poke a v)) = .ok (.poke a v) :=
  operandField_toNat v (.poke a)

theorem decode_encode_portOut (p : Nat) (v : Byte) : decode (encode (.portOut p v)) = .ok (.portOut p v) :=
  operandField_toNat v (.portOut p)

theorem decode_encode_setmode (n : Byte) : decode (encode (.setmode n)) = .ok (.setmode n) :=
  operandField_toNat n .setmode

/-- Every word but a `MODE8` word may come from the host's queue. -/
theorem fromHost_of_ne_mode8 {w : OpWord} (h : ∀ m, w ≠ .mode8 m) : fromHost w = true := by
  cases w with
  | mode8 m => exact absurd rfl (h m)
  | hostop | setmodeArg8 => rfl

/-- A word of the host that does not decode is refused by the decoder's reason (R93, R103). -/
theorem hostMove_undecoded {w : OpWord} {why : DecodeReject} (hw : fromHost w = true) (h : decode w = .error why)
    (s : State) : hostMove (.op w) s = .refused (.undecoded why) := by
  cases w with
  | mode8 m => cases hw
  | hostop | setmodeArg8 => simp only [hostMove, runWord, h]

/-! ## The host's turn -/

theorem hostTurn_of_queue {s : State} {m : HostMove} {rest : List HostMove} (h : s.queue = m :: rest) :
    hostTurn s = hostMove m { s with queue := rest } := by
  simp only [hostTurn, h]

/-- With no request in progress a step is the host's next move (R70, R105; log 3). -/
theorem step_of_no_request {s : State} {m : HostMove} {rest : List HostMove} (hnone : s.requests = [])
    (hqueue : s.queue = m :: rest) : step s = hostMove m { s with queue := rest } := by
  rw [← hostTurn_of_queue hqueue]
  simp only [step, turn, hnone]

/-- With a request in progress the schedule says whose turn it is (R73; log 5). -/
theorem step_of_request {s : State} (h : s.requests ≠ []) : step s = requestTurn s := by
  obtain ⟨q, rest, hrequests⟩ := List.exists_cons_of_ne_nil h
  simp only [step, turn, hrequests]

/-- A scheduled host turn during a request makes the host's next move, and the requests note the memory it leaves. -/
theorem step_of_host_turn {s t : State} {turns : List Turn} {m : HostMove} {rest : List HostMove}
    (hrequests : s.requests ≠ []) (hsched : s.schedule = .host :: turns) (hqueue : s.queue = m :: rest)
    (hmove : hostMove m { s with schedule := turns, queue := rest } = .next t) : step s = .next t.noteSeen := by
  have hturn : hostTurn { s with schedule := turns } = .next t :=
    (hostTurn_of_queue (s := { s with schedule := turns }) hqueue).trans hmove
  rw [step_of_request hrequests]
  simp only [requestTurn, hsched, hostTurnDuring, hturn]

/-- A scheduled late sample during a request (R73(a), log 6). -/
theorem step_of_sample_turn {s : State} {turns : List Turn} {i : Nat} {l : LatchName} (hrequests : s.requests ≠ [])
    (hsched : s.schedule = .sample i l :: turns) :
    step s = .next (State.sampleLatch { s with schedule := turns } i l) := by
  rw [step_of_request hrequests]
  simp only [requestTurn, hsched]

/-- An operation at the head of the queue runs in a step with no request in progress. -/
theorem step_runs_word {s : State} {w : OpWord} {i : Instr} {rest : List HostMove} (hnone : s.requests = [])
    (hqueue : s.queue = .op w :: rest) (hw : fromHost w = true) (hi : decode w = .ok i) :
    step s = exec i { s with queue := rest } :=
  (step_of_no_request hnone hqueue).trans (hostMove_op hw hi _)

/-- Settles O7: the host's move is the decoded operation, the decoder's refusal, or the refusal of a `MODE8` word. -/
theorem stepRunsHostOperation : Obligations.StepRunsHostOperation := by
  intro s w rest hnone hqueue
  refine ⟨fun hne => ⟨fun i hi => ?decodes, fun why hwhy => ?undecoded⟩, ?mode8⟩
  case decodes => exact step_runs_word hnone hqueue (fromHost_of_ne_mode8 hne) hi
  case undecoded =>
    rw [step_of_no_request hnone hqueue]
    exact hostMove_undecoded (fromHost_of_ne_mode8 hne) hwhy _
  case mode8 =>
    rintro m rfl
    exact step_of_no_request hnone hqueue

/-- Settles O9: the host's move is the decoded operation. -/
theorem stepRunsHostOperationDuringRequest : Obligations.StepRunsHostOperationDuringRequest := by
  intro s t turns w rest i hrequests hsched hqueue hi hne hexec
  refine step_of_host_turn hrequests hsched hqueue ?_
  rw [hostMove_op (fromHost_of_ne_mode8 hne) hi]
  exact hexec

/-! ## A load after a store -/

section

variable {s : State} {rest : List HostMove} {a : Nat} (hnone : s.requests = [])
include hnone

theorem step_poke {v : Byte} (hqueue : s.queue = .op (encode (.poke a v)) :: rest) (ha : a < 0x100000) :
    step s = .next ((State.pokeByte { s with queue := rest } a v).answer .none) :=
  (step_runs_word hnone hqueue rfl (decode_encode_poke a v)).trans (if_pos ha)

theorem step_peek (hqueue : s.queue = .op (encode (.peek a)) :: rest) (ha : a < 0x100000) :
    step s = .next (State.answer { s with queue := rest } (.byte (s.mem.read a))) :=
  (step_runs_word hnone hqueue rfl rfl).trans (if_pos ha)

theorem step_portOut {v : Byte} (hqueue : s.queue = .op (encode (.portOut a v)) :: rest) (ha : a < 0x10000) :
    step s = .next ((State.outByte { s with queue := rest } a v).answer .none) :=
  (step_runs_word hnone hqueue rfl (decode_encode_portOut a v)).trans (if_pos ha)

theorem step_portIn (hqueue : s.queue = .op (encode (.portIn a)) :: rest) (ha : a < 0x10000) :
    step s = .next (State.answer { s with queue := rest } (.byte (s.ports.read a))) :=
  (step_runs_word hnone hqueue rfl rfl).trans (if_pos ha)

end

/-- Settles O15: the second operation reads what the first has written. -/
theorem loadAfterStoreReturnsTheByte : Obligations.LoadAfterStoreReturnsTheByte := by
  intro s a b v rest hnone hmem hports
  refine ⟨fun ha hb hqueue => ?memory, fun ha hb hqueue => ?ports⟩
  case memory =>
    refine ⟨_, _, step_poke hnone hqueue ha, step_peek hnone rfl hb, ?_, rfl⟩
    exact congrArg Reply.byte (Memory.read_write hmem a b v)
  case ports =>
    refine ⟨_, _, step_portOut hnone hqueue ha, step_portIn hnone rfl hb, ?_, rfl⟩
    exact congrArg Reply.byte (Memory.read_write hports a b v)

/-! ## A torn start -/

theorem exec_setmode {n : Byte} (hn : Config.supportedMode n = true) (s : State) :
    exec (.setmode n) s = .next ((s.setMode n).answer .none) := if_pos hn

/-- Settles O50: the host's SETMODE notes the cleared memory in the request, and the late sample of `mode_l` then takes the
new mode and leaves the other latches. -/
theorem tornStartPairsNewModeWithOldColor : Obligations.TornStartPairsNewModeWithOldColor := by
  intro s q n rest hrequests hsched hqueue hn
  have hsome : s.requests ≠ [] := by simp [hrequests]
  have hmove := (hostMove_op rfl (decode_encode_setmode n)
    { s with schedule := [.sample q.img .mode], queue := rest }).trans (exec_setmode hn _)
  have hstep := step_of_host_turn hsome hsched hqueue hmove
  refine ⟨_, _, hstep, step_of_sample_turn (by simp [hrequests]) rfl, rfl, ?_, rfl, rfl⟩
  simp [hrequests]

end Sys2Proof.Machine
end

section
/-! PROOFS. A frame depends on the latches, the tables and the VRAM bytes its routine reads (R63, R71, R72, R137). -/

namespace Sys2Proof.Machine

open Sys2Proof Sys2Proof.Safety

/-! ## The offsets a routine reads -/

/-- An offset of a scanline byte: outside the unused tails of the two banks (R63, R137). -/
def ScanlineOffset (o : Nat) : Prop := o < 8000 ∨ 8192 ≤ o ∧ o < 16192

/-- The bytes of the 200 scanlines lie at scanline offsets (R135, R136). -/
theorem goff_scanlineOffset {row k : Nat} (hrow : row < 200) (hk : k < 80) : ScanlineOffset (goff row k) := by
  rw [ScanlineOffset, goff_eq]
  rcases Nat.mod_two_eq_zero_or_one row with hbank | hbank <;> omega

/-- A frame of 40 or 80 columns has its cells in the first `columns · 50` bytes (R137, R181). -/
theorem cellOffset_succ_lt {columns row col : Nat} (hcolumns : columns = 40 ∨ columns = 80) (hrow : row < 200)
    (hcol : col < columns * 8) : cellOffset columns row col + 1 < columns * 50 := by
  rw [cellOffset_eq]
  rcases hcolumns with rfl | rfl <;> omega

/-! ## Two video RAMs that agree where a routine reads -/

/-- The border reads no video RAM (R133), so a pixel depends on it only as the active pixels do. -/
theorem Routine.pixel_congr {r : Routine} {v w : Nat → Byte}
    (h : ∀ row col, row < r.activeH → col < r.activeW → r.active v row col = r.active w row col) (x y : Nat) :
    r.pixel v x y = r.pixel w x y := by
  rw [Routine.pixel_eq, Routine.pixel_eq]
  split
  · exact h _ _ (by omega) (by omega)
  · rfl

/-- A graphics routine with `p` pixels to the byte reads for each active pixel the one scanline byte it lies in (R137). -/
theorem Routine.pixel_congr_of_scanlines {r : Routine} {p : Nat} (colour : Byte → Nat → RGB)
    (hactive : ∀ vram row col, r.active vram row col = colour (vram (goff row (col / p))) col)
    (hwidth : r.activeW = p * 80) (hheight : r.activeH = 200) {v w : Nat → Byte}
    (h : ∀ o, ScanlineOffset o → v o = w o) (x y : Nat) : r.pixel v x y = r.pixel w x y := by
  refine Routine.pixel_congr (fun row col hrow hcol => ?_) x y
  have hbyte : col / p < 80 := Nat.div_lt_of_lt_mul (hwidth ▸ hcol)
  rw [hactive, hactive, h _ (goff_scanlineOffset (hheight ▸ hrow) hbyte)]

section

variable {v w : Nat → Byte} (l : Latches) (t : Tables) (x y : Nat)

theorem g320_pixel_congr (h : ∀ o, ScanlineOffset o → v o = w o) : (g320 l t).pixel v x y = (g320 l t).pixel w x y :=
  Routine.pixel_congr_of_scanlines (fun b col => paletteAt t.pal16 (colIdxG320 l (pix2 b col)))
    (g320_active l t) rfl rfl h x y

theorem g320m5_pixel_congr (h : ∀ o, ScanlineOffset o → v o = w o) :
    (g320m5 l t).pixel v x y = (g320m5 l t).pixel w x y :=
  Routine.pixel_congr_of_scanlines (fun b col => m5Color l t (pix2 b col)) (g320m5_active l t) rfl rfl h x y

theorem g640_pixel_congr (h : ∀ o, ScanlineOffset o → v o = w o) : (g640 l t).pixel v x y = (g640 l t).pixel w x y :=
  Routine.pixel_congr_of_scanlines
    (fun b col => if pix1 b col then paletteAt t.pal16 l.color else paletteAt t.pal16 0) (g640_active l t) rfl rfl h x y

theorem textRoutine_pixel_congr {columns : Nat} (hcolumns : columns = 40 ∨ columns = 80)
    (h : ∀ o, o < columns * 50 → v o = w o) :
    (textRoutine columns l t).pixel v x y = (textRoutine columns l t).pixel w x y := by
  refine Routine.pixel_congr (fun row col hrow hcol => ?_) x y
  have hcell := cellOffset_succ_lt hcolumns hrow hcol
  rw [textRoutine_active, textRoutine_active, h _ hcell, h _ (Nat.lt_of_succ_lt hcell)]

end

/-- Settles O44, one lemma for each routine. -/
theorem unreadVramHasNoEffect : Obligations.UnreadVramHasNoEffect := fun l t _ _ x y =>
  ⟨fun h => ⟨g320_pixel_congr l t x y h, g320m5_pixel_congr l t x y h, g640_pixel_congr l t x y h⟩,
    fun _ hcolumns h => textRoutine_pixel_congr l t x y hcolumns h⟩

/-- No routine reads past the 16,384 bytes of video RAM (R63). -/
theorem routineOf_pixel_congr {l : Latches} {t : Tables} {i : Instr} {m : Byte} {r : Routine}
    (hr : routineOf l t i = some (m, r)) {v w : Nat → Byte} (h : ∀ o, o < 16384 → v o = w o) (x y : Nat) :
    r.pixel v x y = r.pixel w x y := by
  have hscan : ∀ o, ScanlineOffset o → v o = w o := fun o ho => h o (by unfold ScanlineOffset at ho; omega)
  cases i with
  | renderT40 => cases hr; exact textRoutine_pixel_congr l t x y (.inl rfl) fun o (ho : o < 40 * 50) => h o (by omega)
  | renderT80 => cases hr; exact textRoutine_pixel_congr l t x y (.inr rfl) fun o (ho : o < 80 * 50) => h o (by omega)
  | renderG320 => cases hr; exact g320_pixel_congr l t x y hscan
  | renderG320M5 => cases hr; exact g320m5_pixel_congr l t x y hscan
  | renderG640 => cases hr; exact g640_pixel_congr l t x y hscan
  | _ => cases hr

/-! ## The frame of an undisturbed request -/

/-- An operation with a routine draws the frame of that routine on the request the dispatcher gives it. -/
theorem exec_of_routineOf {s : State} {q : Request} {img : Image} {i : Instr} {m : Byte} {r : Routine}
    (hr : routineOf q.latches s.tables i = some (m, r)) (hd : s.dispatched m = .ok (q, img)) :
    exec i s = .next (s.afterFrame q img r) := by
  cases i with
  | renderT40 | renderT80 | renderG320 | renderG320M5 | renderG640 =>
    cases hr
    exact State.drawFrame_of_dispatched _ hd
  | _ => cases hr

/-- What an undisturbed request leaves in its image: the frame computed from the present video RAM (R72). -/
theorem frame_of_undisturbed {s t : State} {q : Request} {img after : Image} {i : Instr} {m : Byte} {r : Routine}
    (hr : routineOf q.latches s.tables i = some (m, r)) (hq : InProgress s q img m) (hu : Undisturbed s q)
    (ht : exec i s = .next t) (hafter : t.images[q.img]? = some after) :
    after.width = r.width ∧ after.height = r.height ∧
      ∀ x y, x < r.width → y < r.height → after.pixel x y = r.pixel s.mem.vram x y := by
  obtain ⟨hhead, hraster, htarget, hmode⟩ := hq
  have hexec := exec_of_routineOf hr (State.dispatched_ok.2 ⟨hhead, hmode, htarget⟩)
  obtain rfl : s.afterFrame q img r = t := by
    rw [hexec] at ht
    exact Host.Outcome.next.inj ht
  obtain ⟨himg, -⟩ := htarget
  obtain ⟨hlt, -⟩ := List.getElem?_eq_some_iff.1 himg
  obtain rfl : img.framed r s.tables.aspect q.raster (fun x y => r.pixel (s.vramSeen q x y) x y) = after :=
    Option.some.inj ((List.getElem?_set_self hlt).symm.trans hafter)
  rw [hraster]
  obtain ⟨hwidth, hheight, -, -, -, hpixel, -⟩ :=
    img.framed_spec r s.tables.aspect fun x y => r.pixel (s.vramSeen q x y) x y
  refine ⟨hwidth, hheight, fun x y hx hy => ?_⟩
  rw [hpixel x y hx hy, funext (State.vramSeen_undisturbed hu x y)]

/-- Settles O45: one routine for both requests, whose frame reads nothing but the 16,384 bytes that agree. -/
theorem frameIsAFunctionOfItsInputs : Obligations.FrameIsAFunctionOfItsInputs := by
  intro s s' t t' q q' img img' after after' i m r hr hq hu hq' hu' hlatches htables hvram ht ht' hafter hafter'
  have hr' : routineOf q'.latches s'.tables i = some (m, r) := by rw [hlatches, htables, hr]
  obtain ⟨hwidth, hheight, hpixel⟩ := frame_of_undisturbed hr hq hu ht hafter
  obtain ⟨hwidth', hheight', hpixel'⟩ := frame_of_undisturbed hr' hq' hu' ht' hafter'
  refine ⟨hwidth'.trans hwidth.symm, hheight'.trans hheight.symm, fun x y hx hy => ?_⟩
  rw [hwidth] at hx
  rw [hheight] at hy
  rw [hpixel x y hx hy, hpixel' x y hx hy]
  exact routineOf_pixel_congr hr hvram x y

end Sys2Proof.Machine
end

section
/-! PROOFS. The words of the three formats: decoder and encoder are inverse to each other, and what the decoder refuses
(R92, R93, R102, R103). -/

namespace Sys2Proof.Machine

open Sys2Proof

/-- The modes that have a routine (R25) are the defined set-mode arguments (R93). -/
theorem supportedMode_iff (m : Byte) : Config.supportedMode m = true ↔ m = 0 ∨ m = 1 ∨ m = 4 ∨ m = 5 ∨ m = 6 := by
  simp [Config.supportedMode, or_assoc]

theorem supportedMode_eq_false {m : Byte} (h0 : m ≠ 0) (h1 : m ≠ 1) (h4 : m ≠ 4) (h5 : m ≠ 5) (h6 : m ≠ 6) :
    Config.supportedMode m = false := by
  rw [← Bool.not_eq_true, supportedMode_iff]
  simp only [h0, h1, h4, h5, h6, or_self, not_false_eq_true]

/-! ## Format `MODE8`: the operation map (R92) -/

/-- A row that fixes all eight bits matches one value. -/
theorem ModeRow.eq_of_matches {m p : Byte} {op : Byte → Instr} (h : ModeRow.matches ⟨0xFF, p, op⟩ m = true) : m = p :=
  (BitVec.and_allOnes (x := m)).symm.trans (beq_iff_eq.1 h)

/-- A row selects an operation whose word is the value it matches. -/
theorem ModeRow.encode_op {row : ModeRow} {m : Byte} (hrow : row ∈ modeRows) (hm : row.matches m = true) :
    encode (row.op m) = .mode8 m := by
  simp only [modeRows, List.mem_cons, List.not_mem_nil, or_false] at hrow
  rcases hrow with rfl | rfl | rfl | rfl | rfl | hrow
  iterate 5 exact congrArg OpWord.mode8 (ModeRow.eq_of_matches hm).symm
  rcases hrow with rfl | rfl | rfl | rfl | rfl | rfl | rfl <;> rfl

/-- The masks and patterns of the twelve rows partition the 256 values. -/
theorem one_modeRow_matches : ∀ m : Byte, (modeRows.filter fun row => row.matches m).length = 1 := by
  decide

/-- The operation the dispatcher selects has the latched mode as its word (R92, R121). -/
theorem encode_eq_of_decodeMode8 {m : Byte} {i : Instr} (h : decodeMode8 m = .ok i) : encode i = .mode8 m := by
  unfold decodeMode8 at h
  split at h
  next row hfind =>
    cases h
    have hmatches : row.matches m = true := List.find?_some (p := fun row : ModeRow => row.matches m) hfind
    exact ModeRow.encode_op (List.mem_of_find?_eq_some hfind) hmatches
  next => cases h

/-- Since some row matches, the dispatcher refuses no mode. -/
theorem exists_decodeMode8 (m : Byte) : ∃ i, decodeMode8 m = .ok i := by
  obtain ⟨row, hrow⟩ := List.length_eq_one_iff.1 (one_modeRow_matches m)
  have hfind : modeRows.find? (fun row => row.matches m) = some row := by
    rw [← List.head?_filter, hrow, List.head?_cons]
  exact ⟨row.op m, by rw [decodeMode8, hfind]⟩

/-- The only operation whose word is a mode without a routine is `RENDER.UNSUPPORTED` (R122). -/
theorem eq_renderUnsupported_of_encode {i : Instr} {m : Byte} (h : encode i = .mode8 m)
    (hm : Config.supportedMode m = false) : i = .renderUnsupported m := by
  cases i with
  | renderUnsupported _ => cases h; rfl
  | renderT40 | renderT80 | renderG320 | renderG320M5 | renderG640 => cases h; cases hm
  | _ => cases h

theorem decodeMode8_of_unsupported {m : Byte} (hm : Config.supportedMode m = false) :
    decodeMode8 m = .ok (.renderUnsupported m) := by
  obtain ⟨i, hi⟩ := exists_decodeMode8 m
  rw [hi, eq_renderUnsupported_of_encode (encode_eq_of_decodeMode8 hi) hm]

/-- Settles O4: one row for each value, and the operation it selects, by whether the mode has a routine. -/
theorem modeRowsPartition : Obligations.ModeRowsPartition := by
  refine ⟨rfl, fun m => ⟨one_modeRow_matches m, ?_⟩⟩
  split_ifs with h0 h1 h4 h5 h6
  case neg => exact decodeMode8_of_unsupported (supportedMode_eq_false h0 h1 h4 h5 h6)
  all_goals subst m; rfl

/-! ## Format `SETMODE_ARG8`: the set-mode argument (R93) -/

theorem encode_of_decodeSetmodeArg8 {n : Byte} {i : Instr} (h : decodeSetmodeArg8 n = .ok i) :
    encode i = .setmodeArg8 n := by
  unfold decodeSetmodeArg8 at h
  split_ifs at h
  all_goals subst n; cases h; rfl

/-- Settles O5: past the five defined arguments the decoder and the host transaction both refuse. -/
theorem setmodeArguments : Obligations.SetmodeArguments := by
  refine ⟨⟨rfl, rfl, rfl, rfl, rfl⟩, fun n h0 h1 h4 h5 h6 => ⟨?word, fun s => ?operand⟩⟩
  case word => simp only [decode, decodeSetmodeArg8, if_neg h0, if_neg h1, if_neg h4, if_neg h5, if_neg h6]
  case operand => exact if_neg (Bool.eq_false_iff.1 (supportedMode_eq_false h0 h1 h4 h5 h6))

/-! ## Format `HOSTOP`: tag and operand fields (R102) -/

/-- What a field decodes to has the field's number as its operand: nothing is cut off. -/
theorem operandField_ok {width v : Nat} {op : BitVec width → Instr} {i : Instr} (h : operandField width v op = .ok i) :
    ∃ b : BitVec width, v = b.toNat ∧ i = op b := by
  unfold operandField at h
  split_ifs at h with hv
  cases h
  exact ⟨BitVec.ofNat width v, (BitVec.toNat_ofNat v width ▸ Nat.mod_eq_of_lt hv).symm, rfl⟩

theorem operandField_tooWide {width v : Nat} (h : 2 ^ width ≤ v) (op : BitVec width → Instr) :
    operandField width v op = .error .operandTooWide := if_neg (Nat.not_lt.2 h)

/-- Settles O6: the refused tag stands before every operand list, and a byte field ends at 2⁸. -/
theorem reservedTagAndWideOperandsRefused : Obligations.ReservedTagAndWideOperandsRefused :=
  ⟨fun _ => rfl, fun addr _ hwide =>
    ⟨operandField_tooWide hwide (.poke addr), operandField_tooWide hwide (.portOut addr),
      operandField_tooWide hwide .setmode⟩⟩

@[simp] theorem imageField_imageOperand (n : Nat) : imageField (imageOperand n) = n := by
  cases n <;> rfl

@[simp] theorem imageOperand_imageField (img : Option Nat) : imageOperand (imageField img) = img := by
  cases img <;> rfl

/-- The arms of the decoder in R102's order: each operand field is the operand itself, or the number a byte, a bit or an
image stands for. -/
theorem encode_of_decodeHostop {tag : BitVec 3} {operands : List Nat} {i : Instr}
    (h : decodeHostop tag operands = .ok i) : encode i = .hostop tag operands := by
  unfold decodeHostop at h
  split at h
  case h_1 htag | h_3 htag | h_5 htag | h_6 htag =>
    obtain ⟨b, rfl, rfl⟩ := operandField_ok h
    exact congrArg (OpWord.hostop · _) (BitVec.eq_of_toNat_eq htag.symm)
  case h_2 htag | h_4 htag =>
    cases h
    exact congrArg (OpWord.hostop · _) (BitVec.eq_of_toNat_eq htag.symm)
  case h_7 htag =>
    cases h
    rw [encode, imageField_imageOperand]
    exact congrArg (OpWord.hostop · _) (BitVec.eq_of_toNat_eq htag.symm)
  case h_8 | h_9 => cases h

/-! ## The two round trips -/

/-- Settles O2, by the format of the word. -/
theorem encodeDecodeRoundTrip : Obligations.EncodeDecodeRoundTrip := fun w _ h =>
  match w with
  | .hostop _ _ => encode_of_decodeHostop h
  | .setmodeArg8 _ => encode_of_decodeSetmodeArg8 h
  | .mode8 _ => encode_eq_of_decodeMode8 h

/-- Settles O1, by the operation. -/
theorem decodeEncodeRoundTrip : Obligations.DecodeEncodeRoundTrip := by
  intro i hi
  cases i with
  | renderT40 | renderT80 | renderG320 | renderG320M5 | renderG640 => rfl
  | renderUnsupported m => exact decodeMode8_of_unsupported (Bool.not_eq_true' _ ▸ hi)
  | setmode0 | setmode1 | setmode4 | setmode5 | setmode6 => rfl
  | peek | portIn => rfl
  | poke a v => exact decode_encode_poke a v
  | portOut p v => exact decode_encode_portOut p v
  | setmode n => exact decode_encode_setmode n
  | blink b => exact operandField_toNat b .blink
  | render img => exact congrArg (Except.ok ∘ Instr.render) (imageOperand_imageField img)

/-- Settles O3: each word is the word of the operation it stands for. -/
theorem specWordsDecode : Obligations.SpecWordsDecode :=
  have roundTrip := decodeEncodeRoundTrip
  ⟨roundTrip .renderT40 rfl, roundTrip .renderT80 rfl, roundTrip .renderG320 rfl, roundTrip .renderG320M5 rfl,
    roundTrip .renderG640 rfl, roundTrip (.renderUnsupported 0x03) rfl, roundTrip (.renderUnsupported 0xFF) rfl,
    roundTrip .setmode5 rfl, roundTrip (.poke 0xB8000 0x1B) rfl, roundTrip (.peek 0xB8000) rfl,
    roundTrip (.portOut 0x3D9 0x21) rfl, roundTrip (.portIn 0x3D9) rfl, roundTrip (.setmode 0x04) rfl,
    roundTrip (.blink 1) rfl⟩

end Sys2Proof.Machine
end

section
/-! PROOFS. The renderer's turn (R92, R120, R121). -/

namespace Sys2Proof.Machine

open Sys2Proof

/-- The renderer runs the operation that the first request's `mode_l` selects (R92, R121). -/
theorem rendererTurn_of_head {s : State} {q : Request} {i : Instr} (hhead : s.requests.head? = some q)
    (hi : decode (.mode8 q.latches.mode) = .ok i) : rendererTurn s = exec i s := by
  obtain ⟨rest, hrequests⟩ := List.head?_eq_some_iff.1 hhead
  simp only [rendererTurn, hrequests]
  exact runWord_ok hi s

/-- The turn of the request on image `k`, which the renderer brings forward first (R73, R233; log 5). -/
theorem step_of_renderer_turn {s : State} {turns : List Turn} {k : Nat} (hrequests : s.requests ≠ [])
    (hsched : s.schedule = .renderer k :: turns) :
    step s = rendererTurn (State.bringForward { s with schedule := turns } k) := by
  rw [step_of_request hrequests]
  simp only [requestTurn, hsched]

/-- The atomic model: without a schedule the renderer has its turn at once (R72; log 5). -/
theorem step_of_empty_schedule {s : State} (hrequests : s.requests ≠ []) (hsched : s.schedule = []) :
    step s = rendererTurn s := by
  rw [step_of_request hrequests]
  simp only [requestTurn, hsched]

/-- Settles O8: the turn that the schedule gives runs the operation of the request it finds first. -/
theorem stepRunsDispatchedOperation : Obligations.StepRunsDispatchedOperation := by
  intro s q i hi
  refine ⟨fun hhead hsched => ?atomic, fun k turns hsched hhead => ?named⟩
  case atomic =>
    have hsome : s.requests ≠ [] := fun hnone => by simp [hnone] at hhead
    exact (step_of_empty_schedule hsome hsched).trans (rendererTurn_of_head hhead hi)
  case named =>
    have hsome : s.requests ≠ [] := fun hnone => by simp [hnone] at hhead
    exact (step_of_renderer_turn hsome hsched).trans (rendererTurn_of_head hhead hi)

end Sys2Proof.Machine
end

section
/-! PROOFS. The packed formats: the pixels of a graphics byte and the fields of a cell's second byte (R94, R95, R98, R99). -/

namespace Sys2Proof.Machine

open Sys2Proof

/-! ## Graphics bytes -/

/-- `PIX2`'s pixel is the two-bit field of its column, leftmost in bits 7:6 (R94). -/
theorem pix2_eq_field (b : Byte) (col : Nat) :
    pix2 b col = field b ((3 - col % 4) * 2 + 1) ((3 - col % 4) * 2) := by
  rw [pix2_eq, field, Nat.add_sub_cancel_left]
  rfl

/-- The four pixels are the byte's digits to base 4. -/
theorem toNat_eq_pix2_digits (b : Byte) :
    b.toNat = 64 * pix2 b 0 + 16 * pix2 b 1 + 4 * pix2 b 2 + pix2 b 3 := by
  have hb := b.isLt
  change b.toNat = 64 * (b.toNat / 64 % 4) + 16 * (b.toNat / 16 % 4) + 4 * (b.toNat / 4 % 4) + b.toNat / 1 % 4
  omega

/-- Settles O35: a pixel is the field of its column mod 4, and the four fields are the digits of the byte. -/
theorem pix2HoldsFourPixels : Obligations.Pix2HoldsFourPixels := by
  intro b col
  refine ⟨pix2_eq b col, pix2_lt b col, ?_, ?_, ?_, ?_, toNat_eq_pix2_digits b, by decide⟩
  all_goals
    intro hcol
    rw [pix2_eq_field, hcol]

/-- The pixels of 0x81, its two outermost bits. -/
theorem pix1_0x81_iff (col : Nat) : pix1 0x81 col = true ↔ col % 8 = 0 ∨ col % 8 = 7 := by
  have hends : ∀ k < 8, bit 0x81 (7 - k) = true ↔ k = 0 ∨ k = 7 := by decide
  exact hends (col % 8) (Nat.mod_lt col (by decide))

/-- Settles O36: a pixel is bit 7 minus column mod 8. -/
theorem pix1HoldsEightPixels : Obligations.Pix1HoldsEightPixels := fun b col =>
  ⟨pix1_eq b col, bit_iff b (7 - col % 8), pix1_0x81_iff col⟩

/-! ## The second byte of a cell -/

/-- The top bit of a byte is set from 128 on. -/
theorem bit_7_eq (v : Byte) : bit v 7 = decide (128 ≤ v.toNat) := by
  have hv := v.isLt
  rw [Bool.eq_iff_iff, bit_iff, decide_eq_true_iff]
  omega

/-- The upper half of a byte is its quotient by 16. -/
theorem field_7_4 (v : Byte) : field v 7 4 = v.toNat / 16 :=
  Nat.mod_eq_of_lt (Nat.div_lt_of_lt_mul v.isLt)

/-- Settles O39, field by field. -/
theorem attributeFormats : Obligations.AttributeFormats := fun attr =>
  ⟨field_3_0 attr, rfl, bit_7_eq attr, field_7_4 attr, rfl⟩

end Sys2Proof.Machine
end

section
/-! PROOFS. The control bits a routine has no use for (R103, R153(e), R163(c), R173(e), R188(f); log 26). -/

namespace Sys2Proof.Machine

open Sys2Proof

/-- Two routines with the same geometry, border and active pixels are one routine (R130). -/
theorem Routine.eq_of_fields {r r' : Routine} (hwidth : r.activeW = r'.activeW) (hheight : r.activeH = r'.activeH)
    (hborder : r.borderCol = r'.borderCol) (hactive : ∀ vram row col, r.active vram row col = r'.active vram row col) :
    r = r' := by
  cases r
  cases r'
  obtain rfl := funext fun vram => funext fun row => funext fun col => hactive vram row col
  cases hwidth
  cases hheight
  cases hborder
  rfl

section

variable {l l' : Latches}

/-! ## The control fields as the bits they are made of (R23, R24) -/

theorem Latches.color_congr (h : l.cs.toNat % 16 = l'.cs.toNat % 16) : l.color = l'.color := by
  rw [Latches.color_eq, Latches.color_eq, h]

theorem Latches.inten_congr (h : l.cs.toNat % 64 = l'.cs.toNat % 64) : l.inten = l'.inten := by
  rw [Bool.eq_iff_iff, Latches.inten_iff, Latches.inten_iff]
  omega

theorem Latches.palsel_congr (h : l.cs.toNat % 64 = l'.cs.toNat % 64) : l.palsel = l'.palsel := by
  rw [Bool.eq_iff_iff, Latches.palsel_iff, Latches.palsel_iff]
  omega

/-! ## The colours a routine forms from them -/

theorem colIdxG320_congr (hcolor : l.color = l'.color) (hinten : l.inten = l'.inten) (hpalsel : l.palsel = l'.palsel)
    (v : Nat) : colIdxG320 l v = colIdxG320 l' v := by
  rw [colIdxG320_eq, colIdxG320_eq, hcolor, hinten, hpalsel]

theorem m5Background_congr (hcolor : l.color = l'.color) (hbw : l.bw = l'.bw) (t : Tables) :
    m5Background l t = m5Background l' t := by
  rw [m5Background, m5Background, hcolor, hbw]

theorem m5Color_congr (hcolor : l.color = l'.color) (hbw : l.bw = l'.bw) (t : Tables) (v : Nat) :
    m5Color l t v = m5Color l' t v := by
  rw [m5Color, m5Color, m5Background_congr hcolor hbw, hbw]

theorem textPalette_congr (hbw : l.bw = l'.bw) (t : Tables) : textPalette l t = textPalette l' t := by
  rw [textPalette, textPalette, hbw]

theorem blinks_congr (hen : l.blinkEnable = l'.blinkEnable) (hphase : l.blink = l'.blink) (attr : Byte) :
    blinks l attr = blinks l' attr := by
  rw [blinks, blinks, hen, hphase]

theorem textIndex_congr (hen : l.blinkEnable = l'.blinkEnable) (hphase : l.blink = l'.blink) (attr : Byte)
    (shape : Bool) : textIndex l attr shape = textIndex l' attr shape := by
  simp only [textIndex, hen, blinks_congr hen hphase]

/-! ## The routines -/

theorem g320_congr (hcolor : l.color = l'.color) (hinten : l.inten = l'.inten) (hpalsel : l.palsel = l'.palsel)
    (t : Tables) : g320 l t = g320 l' t := by
  refine Routine.eq_of_fields rfl rfl ?border fun vram row col => ?active
  case border => rw [g320_borderCol, g320_borderCol, hcolor]
  case active => rw [g320_active, g320_active, colIdxG320_congr hcolor hinten hpalsel]

theorem g640_congr (hcolor : l.color = l'.color) (t : Tables) : g640 l t = g640 l' t := by
  refine Routine.eq_of_fields rfl rfl ?border fun vram row col => ?active
  case border => rw [g640_borderCol, g640_borderCol, hcolor]
  case active => rw [g640_active, g640_active, hcolor]

theorem g320m5_congr (hcolor : l.color = l'.color) (hbw : l.bw = l'.bw) (t : Tables) : g320m5 l t = g320m5 l' t :=
  Routine.eq_of_fields rfl rfl (m5Background_congr hcolor hbw t) fun _ _ _ => m5Color_congr hcolor hbw t _

theorem textRoutine_congr (hcolor : l.color = l'.color) (hbw : l.bw = l'.bw) (hen : l.blinkEnable = l'.blinkEnable)
    (hphase : l.blink = l'.blink) (columns : Nat) (t : Tables) : textRoutine columns l t = textRoutine columns l' t := by
  refine Routine.eq_of_fields rfl rfl ?border fun vram row col => ?active
  case border => rw [textRoutine_borderCol, textRoutine_borderCol, textPalette_congr hbw, hcolor]
  case active => rw [textRoutine_active, textRoutine_active, textPalette_congr hbw, textIndex_congr hen hphase]

end

/-- Settles O43: the fields each routine reads are made of the bits the statement names. -/
theorem unusedControlBitsHaveNoEffect : Obligations.UnusedControlBitsHaveNoEffect := by
  intro l l' t
  refine ⟨fun hcs => ?g320, fun hcs => ?g640, fun hcs hbw => ?g320m5, fun columns hcs hbw hen hphase => ?text⟩
  case g320 =>
    have hcolor : l.cs.toNat % 16 = l'.cs.toNat % 16 := by omega
    exact g320_congr (Latches.color_congr hcolor) (Latches.inten_congr hcs) (Latches.palsel_congr hcs) t
  case g640 => exact g640_congr (Latches.color_congr hcs) t
  case g320m5 => exact g320m5_congr (Latches.color_congr hcs) hbw t
  case text => exact textRoutine_congr (Latches.color_congr hcs) hbw hen hphase columns t

end Sys2Proof.Machine
end

section
/-! PROOFS. The end of a render request (R120 to R124, R133, R221, R227): the frame of a routine or the unsupported mode, the
request as a whole, and what any step can do to an image (R123, R230). -/

namespace Sys2Proof.Machine

open Sys2Proof Sys2Proof.Safety

/-! ## The two ways a request ends -/

/-- The unsupported mode on the request the dispatcher gives it (R122, R221). -/
theorem exec_renderUnsupported {s : State} {q : Request} {img : Image} {m : Byte}
    (hm : Config.supportedMode m = false) (hd : s.dispatched m = .ok (q, img)) :
    exec (.renderUnsupported m) s = .next (s.raiseUnsupported q img) := by
  simp only [exec, execRenderUnsupported, hm, hd, Bool.false_eq_true, if_false]

theorem State.raiseUnsupported_requestEnded (s : State) (q : Request) (img : Image) :
    RequestEnded s (s.raiseUnsupported q img) q (img.withSize 0 0) .unsupported :=
  ⟨rfl, rfl, rfl, rfl, rfl, rfl, rfl, rfl, rfl, rfl, rfl⟩

/-- A frame drawn from the first raster position is a complete one (R123, R133, R34). -/
theorem Image.framed_frameDrawn (img : Image) (r : Routine) (aspect : Nat) (pix : Nat → Nat → RGB) :
    FrameDrawn img (img.framed r aspect ⟨0, 0⟩ pix) r.width r.height pix := by
  obtain ⟨hwidth, hheight, -, hcap, -, hpixel, hbyte, -⟩ := img.framed_spec r aspect pix
  exact ⟨hwidth, hheight, hpixel, hbyte, hcap⟩

/-- A request at its first pixel ends with a complete frame of the bytes it sees, and nothing else of the block changes. -/
theorem State.afterFrame_complete (s : State) {q : Request} (img : Image) (r : Routine) (hraster : q.raster = ⟨0, 0⟩) :
    ∃ after, RequestEnded s (s.afterFrame q img r) q after .ok ∧
      FrameDrawn img after r.width r.height fun x y => r.pixel (s.vramSeen q x y) x y := by
  have hdrawn := img.framed_frameDrawn r s.tables.aspect fun x y => r.pixel (s.vramSeen q x y) x y
  rw [← hraster] at hdrawn
  exact ⟨_, ⟨rfl, rfl, rfl, rfl, rfl, rfl, rfl, rfl, rfl, rfl, rfl⟩, hdrawn⟩

/-- Settles O22: the dispatched request ends with `Image.withSize 0 0`, which leaves the bytes and the aspect ratio. -/
theorem unsupportedModeZeroesTheDimensions : Obligations.UnsupportedModeZeroesTheDimensions := by
  intro s q img m hhead htarget hmode h0 h1 h4 h5 h6
  have hexec := exec_renderUnsupported (supportedMode_eq_false h0 h1 h4 h5 h6)
    (State.dispatched_ok.2 ⟨hhead, hmode, htarget⟩)
  exact ⟨_, _, hexec, s.raiseUnsupported_requestEnded q img, rfl, rfl, img.withSize_byte 0 0, rfl, rfl⟩

/-- Settles O27: a request in progress is dispatched, and its frame starts at the first pixel. -/
theorem everyRoutineCompletesItsFrame : Obligations.EveryRoutineCompletesItsFrame := by
  intro s q img i m r hr ⟨hhead, hraster, htarget, hmode⟩
  have hexec := exec_of_routineOf hr (State.dispatched_ok.2 ⟨hhead, hmode, htarget⟩)
  obtain ⟨after, hended, hdrawn⟩ := s.afterFrame_complete img r hraster
  exact ⟨_, after, hexec, hended, hdrawn⟩

/-! ## The request as a whole -/

/-- A supported mode selects an operation with a routine (R92, R121). -/
theorem exists_routineOf_decodeMode8 {m : Byte} (hm : Config.supportedMode m = true) (l : Latches) (t : Tables) :
    ∃ op r, decodeMode8 m = .ok op ∧ routineOf l t op = some (m, r) := by
  rcases (supportedMode_iff m).1 hm with rfl | rfl | rfl | rfl | rfl <;> exact ⟨_, _, rfl, rfl⟩

/-- The end of a request says every field of the next state but the counter of free values. -/
theorem state_eq_of_requestEnded {s t : State} {q : Request} {after : Image} {result : Result}
    (h : RequestEnded s t q after result) :
    t = { s with
      images := s.images.set q.img after, reply := .result result, requests := s.requests.tail, draws := t.draws } := by
  obtain ⟨himages, hreply, hrequests, hmem, hports, hmode, hblink, hkey, htables, hqueue, hsched⟩ := h
  cases t
  subst himages hreply hrequests hmem hports hmode hblink hkey htables hqueue hsched
  rfl

section

variable {s : State} {i : Nat} {img : Image} (hnone : s.requests = [])
include hnone

/-- RENDER at the head of the queue opens the request (R120, log 4). -/
theorem step_render {rest : List HostMove} (hqueue : s.queue = .op (encode (.render (some i))) :: rest)
    (htarget : HasTarget s i img) : step s = .next (State.openRequest { s with queue := rest } i) := by
  obtain ⟨himg, hcap⟩ := htarget
  have hfree : s.inUse i = false := State.inUse_eq_false.2 (by simp [hnone])
  have hexec := exec_render_of_owned (s := { s with queue := rest }) himg
  exact ((step_runs_word hnone hqueue rfl rfl).trans hexec).trans
    ((if_neg (Bool.eq_false_iff.1 hfree)).trans (if_pos hcap))

theorem State.openRequest_head : (s.openRequest i).requests.head? = some (s.newRequest i) := by
  rw [State.openRequest_requests, hnone]
  rfl

/-- Without a schedule the step after RENDER runs the operation that `MODE` selects (R72, R121). -/
theorem step_openRequest {op : Instr} (hsched : s.schedule = []) (hop : decodeMode8 s.mode = .ok op) :
    step (s.openRequest i) = exec op (s.openRequest i) := by
  have hsome : (s.openRequest i).requests ≠ [] := by simp
  exact (step_of_empty_schedule hsome hsched).trans (rendererTurn_of_head (State.openRequest_head hnone) hop)

/-- Opened and ended, a request leaves its image, its result and the counter of free values. -/
theorem state_eq_of_openRequest_requestEnded {t : State} {after : Image} {result : Result}
    (h : RequestEnded (s.openRequest i) t (s.newRequest i) after result) :
    t = { s with images := s.images.set i after, reply := .result result, draws := t.draws } := by
  have htail : (s.openRequest i).requests.tail = s.requests := by
    rw [State.openRequest_requests, hnone]
    rfl
  have heq := state_eq_of_requestEnded h
  rw [htail] at heq
  exact heq

variable (hsched : s.schedule = []) (htarget : HasTarget s i img)
include hsched htarget

/-- Under a supported mode the step after RENDER draws the frame of the present video RAM (R72, R133). -/
theorem step_openRequest_of_supported (hm : Config.supportedMode s.mode = true) :
    ∃ t after op r, step (s.openRequest i) = .next t ∧
      t = { s with images := s.images.set i after, reply := .result .ok, draws := t.draws } ∧
      routineOf s.sampled s.tables op = some (s.mode, r) ∧
      FrameDrawn img after r.width r.height fun x y => r.pixel s.mem.vram x y := by
  obtain ⟨op, r, hop, hr⟩ := exists_routineOf_decodeMode8 hm s.sampled s.tables
  obtain ⟨t, after, hexec, hended, hdrawn⟩ := everyRoutineCompletesItsFrame
    (s.openRequest i) (s.newRequest i) img op s.mode r hr ⟨State.openRequest_head hnone, rfl, htarget, rfl⟩
  have hundisturbed : Undisturbed (s.openRequest i) (s.newRequest i) := rfl
  have hpresent (x y : Nat) : (s.openRequest i).vramSeen (s.newRequest i) x y = s.mem.vram :=
    funext (State.vramSeen_undisturbed hundisturbed x y)
  simp only [hpresent] at hdrawn
  exact ⟨t, after, op, r, (step_openRequest hnone hsched hop).trans hexec,
    state_eq_of_openRequest_requestEnded hnone hended, hr, hdrawn⟩

/-- Under a mode without a routine it raises `Unsupported` (R122). -/
theorem step_openRequest_of_unsupported (hm : Config.supportedMode s.mode = false) :
    ∃ t, step (s.openRequest i) = .next t ∧
      t = { s with
        images := s.images.set i (img.withSize 0 0), reply := .result .unsupported, draws := t.draws } := by
  have hd : (s.openRequest i).dispatched s.mode = .ok (s.newRequest i, img) :=
    State.dispatched_ok.2 ⟨State.openRequest_head hnone, rfl, htarget⟩
  have hended := (s.openRequest i).raiseUnsupported_requestEnded (s.newRequest i) img
  exact ⟨_, (step_openRequest hnone hsched (decodeMode8_of_unsupported hm)).trans (exec_renderUnsupported hm hd),
    state_eq_of_openRequest_requestEnded hnone hended⟩

end

/-- Settles O28: RENDER opens a request that no host step disturbs, and the next step ends it by the routine `MODE` selects
or as unsupported. -/
theorem renderRequestIsOneFrame : Obligations.RenderRequestIsOneFrame := by
  intro s i img rest hnone hsched hqueue htarget
  have hopen := step_render hnone hqueue htarget
  cases hm : Config.supportedMode s.mode with
  | true =>
    obtain ⟨t, after, op, r, hstep, heq, hr, hdrawn⟩ :=
      step_openRequest_of_supported (s := { s with queue := rest }) hnone hsched htarget hm
    exact ⟨_, t, after, .ok, hopen, hstep, heq, fun _ => ⟨rfl, op, r, hr, hdrawn⟩, nofun⟩
  | false =>
    obtain ⟨t, hstep, heq⟩ := step_openRequest_of_unsupported (s := { s with queue := rest }) hnone hsched htarget hm
    exact ⟨_, t, _, .unsupported, hopen, hstep, heq, nofun, fun _ => ⟨rfl, rfl⟩⟩

/-! ## What a step does to the images -/

/-- `t` is reached from `s` by ending a request, whose image alone has changed: to a complete frame of the routine its
`mode_l` selects, or to zero dimensions (R123, R122). -/
def EndsRequest (s t : State) : Prop :=
  ∃ q ∈ s.requests, ∃ before after, s.images[q.img]? = some before ∧
    t.images = s.images.set q.img after ∧ t.inUse q.img = false ∧
    ((t.reply = .result .ok ∧ ∃ op r, routineOf q.latches s.tables op = some (q.latches.mode, r) ∧
        FrameDrawn before after r.width r.height fun x y => r.pixel (s.vramSeen q x y) x y) ∨
     (Config.supportedMode q.latches.mode = false ∧ t.reply = .result .unsupported ∧ after = before.withSize 0 0))

/-- No second request is on the image of the one that has ended (R233). -/
theorem inUse_eq_false_of_requestEnded {s t : State} {q : Request} {after : Image} {result : Result}
    (h : RequestEnded s t q after result) (hs : Inv s) (hhead : s.requests.head? = some q) : t.inUse q.img = false := by
  obtain ⟨-, -, htail, -⟩ := h
  obtain ⟨others, hrequests⟩ := List.head?_eq_some_iff.1 hhead
  have hdistinct := hs.distinct
  rw [hrequests, List.map_cons, List.nodup_cons] at hdistinct
  rw [State.inUse_eq_false, htail, hrequests]
  exact fun q' hq' himg => hdistinct.1 (himg ▸ List.mem_map_of_mem hq')

/-- An operation leaves every image alone, or ends the request the dispatcher has selected. -/
theorem Effect.images_eq_or_endsRequest {s t : State} {i : Instr} (h : Effect s i t) (hs : Inv s) :
    t.images = s.images ∨ EndsRequest s t := by
  cases h with
  | @unsupported m q img hm hd =>
    obtain ⟨hhead, rfl, himg, -⟩ := State.dispatched_ok.1 hd
    have hfree := inUse_eq_false_of_requestEnded (s.raiseUnsupported_requestEnded q img) hs hhead
    exact .inr ⟨q, List.mem_of_head? hhead, img, _, himg, rfl, hfree, .inr ⟨hm, rfl, rfl⟩⟩
  | @frame _ m r q img hd hr =>
    obtain ⟨hhead, rfl, himg, -⟩ := State.dispatched_ok.1 hd
    have hq := List.mem_of_head? hhead
    obtain ⟨hraster, -⟩ := hs.requests q hq
    obtain ⟨after, hended, hdrawn⟩ := s.afterFrame_complete img r hraster
    have hfree := inUse_eq_false_of_requestEnded hended hs hhead
    obtain ⟨himages, hreply, -⟩ := hended
    exact .inr ⟨q, hq, img, after, himg, himages, hfree, .inl ⟨hreply, i, r, hr, hdrawn⟩⟩
  | _ => exact .inl rfl

/-- The schedule and the order of the requests have no part in what ends a request. -/
theorem EndsRequest.of_bringForward {s t : State} {sched : List Turn} {k : Nat}
    (h : EndsRequest (State.bringForward { s with schedule := sched } k) t) : EndsRequest s t := by
  obtain ⟨q, hq, hend⟩ := h
  exact ⟨q, State.mem_bringForward.1 hq, hend⟩

/-- An operation with a routine has the word of the mode that selects it (R92). -/
theorem encode_of_routineOf {l : Latches} {t : Tables} {i : Instr} {m : Byte} {r : Routine}
    (h : routineOf l t i = some (m, r)) : encode i = .mode8 m := by
  cases i with
  | renderT40 | renderT80 | renderG320 | renderG320M5 | renderG640 => cases h; rfl
  | _ => cases h

/-- No operation of the host writes an image: only the dispatcher enters a routine (R223, R230). -/
theorem Effect.images_of_fromHost {s t : State} {i : Instr} (h : Effect s i t) (hi : fromHost (encode i) = true) :
    t.images = s.images := by
  cases h with
  | unsupported => cases hi
  | frame _ hr => rw [encode_of_routineOf hr] at hi; cases hi
  | _ => rfl

/-- The move is the host's write to image `i`, of a byte or of the fields (R209, R230; log 22). -/
def HostMove.WritesImage (m : HostMove) (i : Nat) : Prop :=
  (∃ k v, m = .imageWrite i k v) ∨ ∃ w h a, m = .fieldsWrite i w h a

/-- A move of the host leaves every image alone, or writes one that no request is on (R230, U13). -/
theorem HostEffect.images_eq_or_write {s t : State} {m : HostMove} (h : HostEffect s m t) :
    t.images = s.images ∨ ∃ i after, m.WritesImage i ∧ s.inUse i = false ∧ t.images = s.images.set i after := by
  cases h with
  | @op w i _ hw hi he =>
    rw [← encodeDecodeRoundTrip w i hi] at hw
    exact .inl ((exec_effect he).images_of_fromHost hw)
  | imageWrite himg =>
    obtain ⟨-, hfree⟩ := State.ownImage_ok.1 himg
    exact .inr ⟨_, _, .inl ⟨_, _, rfl⟩, hfree, rfl⟩
  | fieldsWrite himg =>
    obtain ⟨-, hfree⟩ := State.ownImage_ok.1 himg
    exact .inr ⟨_, _, .inr ⟨_, _, _, rfl⟩, hfree, rfl⟩
  | keyWrite | keyRead | imageRead | fieldsRead => exact .inl rfl

/-- Every case of a step leaves the images alone, writes one for the host, or ends a request. -/
theorem Move.images_cases {s t : State} (h : Move s t) (hs : Inv s) :
    t.images = s.images ∨
    (∃ m rest i after, s.queue = m :: rest ∧ m.WritesImage i ∧ s.inUse i = false ∧
      t.images = s.images.set i after) ∨
    EndsRequest s t := by
  cases h with
  | idle | sample | idleDuring => exact .inl rfl
  | host _ hqueue he | during _ _ hqueue he =>
    rcases he.images_eq_or_write with hsame | ⟨i, after, hwrite, hfree, himages⟩
    · exact .inl hsame
    · exact .inr (.inl ⟨_, _, i, after, hqueue, hwrite, hfree, himages⟩)
  | dispatch _ _ _ he => exact ((exec_effect he).images_eq_or_endsRequest hs).imp_right .inr
  | @dispatchNamed _ k _ sched _ _ _ _ he =>
    have hcases := (exec_effect he).images_eq_or_endsRequest ((hs.withComing s.queue sched).bringForward k)
    exact hcases.imp_right fun hend => .inr hend.of_bringForward

/-- Settles O54, by the cases of a step; the host's write is the move at the head of its queue. -/
theorem imagesChangeAllOrNothing : Obligations.ImagesChangeAllOrNothing := by
  intro s t hs h
  refine ((step_move h).images_cases hs).imp_right (Or.imp_left ?_)
  rintro ⟨m, rest, i, after, hqueue, hwrite, hfree, himages⟩
  refine ⟨i, rest, after, ?_, hfree, himages⟩
  rcases hwrite with ⟨k, v, rfl⟩ | ⟨w, h, a, rfl⟩
  · exact .inl ⟨k, v, hqueue⟩
  · exact .inr ⟨w, h, a, hqueue⟩

end Sys2Proof.Machine
end

section
/-! PROOFS. The scanline bytes fill the two banks of video RAM, each offset once (R135 to R137, R63). -/

namespace Sys2Proof.Machine

open Sys2Proof

/-! ## The bank of a scanline byte and its place in the bank -/

/-- The bank of a scanline byte is the parity of its row (R135): the hundred scanlines of a bank fit into it. -/
theorem goff_div_bankSize {row k : Nat} (hrow : row < 200) (hk : k < 80) : goff row k / 8192 = row % 2 := by
  rw [goff_eq]
  omega

/-- In its bank the byte lies 80 bytes a scanline further on (R136). -/
theorem goff_mod_bankSize {row k : Nat} (hrow : row < 200) (hk : k < 80) : goff row k % 8192 = row / 2 * 80 + k := by
  rw [goff_eq]
  omega

/-- Bank and place in the bank give back the row and the byte of the row. -/
theorem goff_injective {row k row' k' : Nat} (hrow : row < 200) (hk : k < 80) (hrow' : row' < 200) (hk' : k' < 80)
    (h : goff row k = goff row' k') : row = row' ∧ k = k' := by
  have hbank : row % 2 = row' % 2 := by rw [← goff_div_bankSize hrow hk, h, goff_div_bankSize hrow' hk']
  have hplace : row / 2 * 80 + k = row' / 2 * 80 + k' := by
    rw [← goff_mod_bankSize hrow hk, h, goff_mod_bankSize hrow' hk']
  omega

/-! ## The offsets that are scanline bytes -/

/-- The scanline byte at an offset: its bank is the row's parity, its place in the bank the row's half and the byte. -/
theorem goff_of_scanlineOffset {o : Nat} (ho : ScanlineOffset o) :
    goff (2 * (o % 8192 / 80) + o / 8192) (o % 8192 % 80) = o := by
  unfold ScanlineOffset at ho
  rw [goff_eq]
  omega

/-- The scanline offsets are exactly the offsets of scanline bytes. -/
theorem exists_goff_eq_iff {o : Nat} : (∃ row k, row < 200 ∧ k < 80 ∧ goff row k = o) ↔ ScanlineOffset o := by
  constructor
  · rintro ⟨row, k, hrow, hk, rfl⟩
    exact goff_scanlineOffset hrow hk
  · intro ho
    refine ⟨_, _, ?_, Nat.mod_lt _ (by decide), goff_of_scanlineOffset ho⟩
    unfold ScanlineOffset at ho
    omega

/-- Settles O37: the bounds are those of a scanline offset, and which bank it lies in is the row's parity. -/
theorem scanlinesTileBothBanks : Obligations.ScanlinesTileBothBanks := by
  refine ⟨fun row k row' k' hrow hk hrow' hk' => ?_, fun o => exists_goff_eq_iff⟩
  have hoffset : goff row k < 8000 ∨ 8192 ≤ goff row k ∧ goff row k < 16192 := goff_scanlineOffset hrow hk
  have hbank := goff_div_bankSize hrow hk
  refine ⟨goff_injective hrow hk hrow' hk', ?last, ?even, ?odd⟩
  all_goals omega

end Sys2Proof.Machine
end

section
/-! PROOFS. The indices a routine forms lie inside their tables (R139, R151, R182). -/

namespace Sys2Proof.Machine

open Sys2Proof

/-- `CS.COLOR` indexes a palette (R24, R139). -/
theorem Latches.color_lt (l : Latches) : l.color < 16 := field_lt l.cs 3 0

/-- An entry of the two foreground sets is at most 7, and the intensity adds 8 (R151). -/
theorem colIdxG320_lt (l : Latches) {v : Nat} (hv : v < 4) : colIdxG320 l v < 16 := by
  have hforeground : ∀ (palsel inten : Bool), ∀ k < 3,
      (if palsel then [3, 5, 7] else [2, 4, 6]).getD k 0 + (if inten then 8 else 0) < 16 := by decide
  rw [colIdxG320_eq]
  split
  · exact l.color_lt
  · exact hforeground l.palsel l.inten (v - 1) (by omega)

/-- An attribute's foreground is four bits wide (R98, R99). -/
theorem attrFg_lt (attr : Byte) : attrFg attr < 16 := field_lt attr 3 0

/-- An attribute's background is three or four bits wide (R98, R99). -/
theorem attrBg_lt (blinkEnable : Bool) (attr : Byte) : attrBg blinkEnable attr < 16 := by
  rw [attrBg_eq]
  split
  · exact (field_lt attr 6 4).trans (by decide)
  · exact field_lt attr 7 4

/-- A text pixel shows one of the two colours of its cell, blinking or not (R185, R186). -/
theorem textIndex_eq_attrFg_or_attrBg (l : Latches) (attr : Byte) (shape : Bool) :
    textIndex l attr shape = attrFg attr ∨ textIndex l attr shape = attrBg l.blinkEnable attr := by
  unfold textIndex
  cases shape <;> cases blinks l attr <;> simp

theorem textIndex_lt (l : Latches) (attr : Byte) (shape : Bool) : textIndex l attr shape < 16 := by
  rcases textIndex_eq_attrFg_or_attrBg l attr shape with hfg | hbg
  · exact hfg ▸ attrFg_lt attr
  · exact hbg ▸ attrBg_lt l.blinkEnable attr

/-- The 256 codes have eight glyph bytes each (R45, R182). -/
theorem glyphByte_lt (code : Byte) (row : Nat) : code.toNat * 8 + row % 8 < 2048 := by
  have hcode := code.isLt
  omega

/-- Settles O41, one bound for each kind of index. -/
theorem tableIndicesInRange : Obligations.TableIndicesInRange := fun l _ row code attr shape hv =>
  ⟨l.color_lt, colIdxG320_lt l hv, textIndex_lt l attr shape, glyphByte_lt code row⟩

end Sys2Proof.Machine
end

section
/-! PROOFS. The 320-column graphics mode: the colour index of a pixel value (R150, R151), the frame of an undisturbed request
(R150, R152), and the bytes a frame shows (R153(b)). -/

namespace Sys2Proof.Machine

open Sys2Proof Sys2Proof.Safety

/-! ## The colour index (R151) -/

/-- A bit as a number (R9). -/
theorem bit_toNat (v : Byte) (i : Nat) : (bit v i).toNat = v.toNat / 2 ^ i % 2 := Nat.toNat_testBit v.toNat i

/-- The foreground sets are 2, 4, 6 raised by the palette-select bit, and the intensity bit counts 8. -/
theorem colIdxG320_foreground (l : Latches) {v : Nat} (hne : v ≠ 0) (hv : v < 4) :
    colIdxG320 l v = 2 * v + l.cs.toNat / 32 % 2 + 8 * (l.cs.toNat / 16 % 2) := by
  have hsets : ∀ (palsel inten : Bool), ∀ v < 4, v ≠ 0 →
      (if palsel then [3, 5, 7] else [2, 4, 6]).getD (v - 1) 0 + (if inten then 8 else 0) =
        2 * v + palsel.toNat + 8 * inten.toNat := by decide
  have hpalsel : l.palsel.toNat = l.cs.toNat / 32 % 2 := bit_toNat l.cs 5
  have hinten : l.inten.toNat = l.cs.toNat / 16 % 2 := bit_toNat l.cs 4
  rw [colIdxG320_eq, if_neg hne, hsets _ _ v hv hne, hpalsel, hinten]

/-- The colour index of every pixel value as arithmetic on Color Select. -/
theorem colIdxG320_eq_ite (l : Latches) {v : Nat} (hv : v < 4) :
    colIdxG320 l v =
      if v = 0 then l.cs.toNat % 16 else 2 * v + l.cs.toNat / 32 % 2 + 8 * (l.cs.toNat / 16 % 2) := by
  split
  next hzero => rw [hzero, colIdxG320_zero, Latches.color_eq]
  next hne => exact colIdxG320_foreground l hne hv

/-- Settles O40: the index reads Color Select only, and the foreground sets are an arithmetic progression. -/
theorem g320ColourIndex : Obligations.G320ColourIndex := by
  intro l v hv
  refine ⟨?background, fun hne => ?sets, fun hne => colIdxG320_foreground l hne hv, ?range, fun mc => rfl⟩
  case background => rw [colIdxG320_zero, Latches.color_eq]
  case sets =>
    rw [colIdxG320_eq, if_neg hne]
    rfl
  case range => exact Nat.le_of_lt_succ (colIdxG320_lt l hv)

/-! ## The frame of an undisturbed request (R150, R152) -/

/-- A request that no host step has disturbed ends with the frame of the present video RAM (R72, R133). -/
theorem exec_draws_of_undisturbed {s : State} {q : Request} {img : Image} {i : Instr} {m : Byte} {r : Routine}
    (hr : routineOf q.latches s.tables i = some (m, r)) (hq : InProgress s q img m) (hu : Undisturbed s q) :
    ∃ t after, exec i s = .next t ∧ RequestEnded s t q after .ok ∧
      FrameDrawn img after r.width r.height fun x y => r.pixel s.mem.vram x y := by
  have hpresent (x y : Nat) : s.vramSeen q x y = s.mem.vram := funext (State.vramSeen_undisturbed hu x y)
  have hcomplete := everyRoutineCompletesItsFrame s q img i m r hr hq
  simp only [hpresent] at hcomplete
  exact hcomplete

/-- An active pixel in the spec's own arithmetic: its scanline byte, the pixel value there, the palette entry (R150). -/
theorem g320_active_eq (l : Latches) (t : Tables) (vram : Nat → Byte) (row col : Nat) :
    (g320 l t).active vram row col =
      let v := (vram (row % 2 * 8192 + row / 2 * 80 + col / 4)).toNat / 2 ^ ((3 - col % 4) * 2) % 4
      paletteAt t.pal16
        (if v = 0 then l.cs.toNat % 16 else 2 * v + l.cs.toNat / 32 % 2 + 8 * (l.cs.toNat / 16 % 2)) := by
  rw [g320_active, colIdxG320_eq_ite l (pix2_lt _ col), pix2_eq, goff_eq]

/-- Settles O23: the routine of R150 on the present video RAM, its pixels in the spec's own literals. -/
theorem g320DrawsItsFrame : Obligations.G320DrawsItsFrame := by
  intro s q img hq hu
  obtain ⟨t, after, hexec, hended, hdrawn⟩ := exec_draws_of_undisturbed (i := .renderG320) rfl hq hu
  refine ⟨t, after, hexec, hended, ?_⟩
  simp only [Routine.pixel_eq, g320_active_eq, g320_borderCol, Latches.color_eq] at hdrawn
  exact hdrawn

/-! ## The bytes a frame shows (R153(b)) -/

/-- Only the column's place in its byte selects the bits (R94). -/
theorem pix2_four_mul_add (b : Byte) (k c : Nat) : pix2 b (4 * k + c) = pix2 b c := by
  rw [pix2_eq, pix2_eq, Nat.mul_add_mod]

/-- Two bytes with the same four pixels are one byte (R94). -/
theorem eq_of_pix2_eq {b b' : Byte} (h : ∀ c < 4, pix2 b c = pix2 b' c) : b = b' := by
  apply BitVec.eq_of_toNat_eq
  rw [toNat_eq_pix2_digits b, toNat_eq_pix2_digits b', h 0 (by decide), h 1 (by decide), h 2 (by decide),
    h 3 (by decide)]

/-- With Color Select 0 the pixel values index the even entries up to 6. -/
theorem colIdxG320_of_cs_zero {l : Latches} (hcs : l.cs = 0) {v : Nat} (hv : v < 4) : colIdxG320 l v = 2 * v := by
  simp [colIdxG320_eq_ite l hv, hcs]

/-- Where those four entries differ, a pixel's colour tells its value. -/
theorem eq_of_paletteAt_colIdxG320_eq {l : Latches} {t : Tables} (hcs : l.cs = 0)
    (hdistinct : ([0, 2, 4, 6].map (paletteAt t.pal16)).Nodup) {v v' : Nat} (hv : v < 4) (hv' : v' < 4)
    (h : paletteAt t.pal16 (colIdxG320 l v) = paletteAt t.pal16 (colIdxG320 l v')) : v = v' := by
  have hused : ∀ v < 4, 2 * v ∈ [0, 2, 4, 6] := by decide
  rw [colIdxG320_of_cs_zero hcs hv, colIdxG320_of_cs_zero hcs hv'] at h
  have hindex : 2 * v = 2 * v' := List.inj_on_of_nodup_map hdistinct (hused v hv) (hused v' hv') h
  omega

/-- Settles O46: the byte at a scanline offset is shown by the four columns that lie in it, and their colours give back
its four pixel values. -/
theorem g320FrameDeterminesItsBytes : Obligations.G320FrameDeterminesItsBytes := by
  intro l t v w hcs hdistinct hframe o ho
  obtain ⟨row, k, hrow, hk, rfl⟩ := exists_goff_eq_iff.2 ho
  refine eq_of_pix2_eq fun c hc => ?_
  have hcolour := hframe row (4 * k + c) hrow (by omega)
  have hbyte : (4 * k + c) / 4 = k := by omega
  rw [g320_active, g320_active, hbyte, pix2_four_mul_add, pix2_four_mul_add] at hcolour
  exact eq_of_paletteAt_colIdxG320_eq hcs hdistinct (pix2_lt _ c) (pix2_lt _ c) hcolour

end Sys2Proof.Machine
end

section
/-! PROOFS. The frame of `G320M5` (R160 to R162). -/

namespace Sys2Proof.Machine

open Sys2Proof

/-! ## The colours of a pixel value (R161) -/

/-- The palette set that Mode Control bit 2 selects for the pixel values 1 to 3 (R161). -/
def m5Set (l : Latches) (t : Tables) : M5Set := if l.mc.toNat / 4 % 2 = 1 then t.m5Gray else t.m5Color

/-- Colour 0, and with it the border, by the bits of Mode Control and Color Select (R161, R162). -/
theorem m5Background_eq (l : Latches) (t : Tables) :
    m5Background l t =
      if l.mc.toNat / 4 % 2 = 1 then gray (paletteAt t.pal16 (l.cs.toNat % 16))
      else paletteAt t.pal16 (l.cs.toNat % 16) := by
  simp only [m5Background, Latches.bw_iff, Latches.color_eq]

/-- Every pixel value other than 0 shows its entry of the one selected set. -/
theorem m5Color_foreground (l : Latches) (t : Tables) {v : Nat} (hne : v ≠ 0) :
    m5Color l t v = (m5Set l t).entry v := by
  rw [m5Color, if_neg hne, m5Set, apply_ite (M5Set.entry · v)]
  simp only [Latches.bw_iff]

/-- The colour of a pixel value, entry by entry. -/
theorem m5Color_eq_ite (l : Latches) (t : Tables) (v : Nat) :
    m5Color l t v =
      if v = 0 then m5Background l t
      else if v = 1 then (m5Set l t).entry1 else if v = 2 then (m5Set l t).entry2 else (m5Set l t).entry3 := by
  split
  next hzero => rw [hzero, m5Color, if_pos rfl]
  next hne => rw [m5Color_foreground l t hne, M5Set.entry]

/-! ## The frame of an undisturbed request (R160, R162) -/

/-- An active pixel in the spec's own arithmetic: its scanline byte, the pixel value there, the colour of that value
(R160). -/
theorem g320m5_active_eq (l : Latches) (t : Tables) (vram : Nat → Byte) (row col : Nat) :
    (g320m5 l t).active vram row col =
      let v := (vram (row % 2 * 8192 + row / 2 * 80 + col / 4)).toNat / 2 ^ ((3 - col % 4) * 2) % 4
      if v = 0 then m5Background l t
      else if v = 1 then (m5Set l t).entry1 else if v = 2 then (m5Set l t).entry2 else (m5Set l t).entry3 := by
  rw [g320m5_active, m5Color_eq_ite, pix2_eq, goff_eq]

/-- Settles O24: the routine of R160 on the present video RAM, its pixels in the spec's own literals. -/
theorem g320M5DrawsItsFrame : Obligations.G320M5DrawsItsFrame := by
  intro s q img hq hu
  obtain ⟨t, after, hexec, hended, hdrawn⟩ := exec_draws_of_undisturbed (i := .renderG320M5) rfl hq hu
  refine ⟨t, after, hexec, hended, ?_⟩
  simp only [Routine.pixel_eq, g320m5_active_eq, g320m5_borderCol, m5Background_eq, m5Set] at hdrawn
  exact hdrawn

end Sys2Proof.Machine
end

section
/-! PROOFS. The frame of `G640` (R170 to R172). -/

namespace Sys2Proof.Machine

open Sys2Proof

/-- An active pixel in the spec's own arithmetic: its scanline byte, the bit there, ink or paper (R170, R171). -/
theorem g640_active_eq (l : Latches) (t : Tables) (vram : Nat → Byte) (row col : Nat) :
    (g640 l t).active vram row col =
      if (vram (row % 2 * 8192 + row / 2 * 80 + col / 8)).toNat / 2 ^ (7 - col % 8) % 2 = 1 then
        paletteAt t.pal16 (l.cs.toNat % 16)
      else paletteAt t.pal16 0 := by
  simp only [g640_active, pix1_eq, bit_iff, goff_eq, Latches.color_eq]

/-- Settles O25: the routine of R170 on the present video RAM, its pixels in the spec's own literals. -/
theorem g640DrawsItsFrame : Obligations.G640DrawsItsFrame := by
  intro s q img hq hu
  obtain ⟨t, after, hexec, hended, hdrawn⟩ := exec_draws_of_undisturbed (i := .renderG640) rfl hq hu
  refine ⟨t, after, hexec, hended, ?_⟩
  simp only [Routine.pixel_eq, g640_active_eq, g640_borderCol, Latches.color_eq] at hdrawn
  exact hdrawn

end Sys2Proof.Machine
end

section
/-! PROOFS. The text modes: the cells of a frame (R181), blink (R185 to R187), and the frame of an undisturbed request
(R180 to R186). -/

namespace Sys2Proof.Machine

open Sys2Proof Sys2Proof.Safety

/-! ## The cells of a frame (R181) -/

/-- Cells are numbered row by row, so two positions with one cell number have one cell row and one cell column. -/
theorem cellOffset_eq_iff {columns row col row' col' : Nat} (hcolumns : columns = 40 ∨ columns = 80)
    (hcol : col < columns * 8) (hcol' : col' < columns * 8) :
    cellOffset columns row col = cellOffset columns row' col' ↔ row / 8 = row' / 8 ∧ col / 8 = col' / 8 := by
  rw [cellOffset_eq, cellOffset_eq]
  rcases hcolumns with rfl | rfl <;> omega

/-- Settles O38: a cell is two bytes, so its offset is even, and cells are numbered row by row. -/
theorem cellAddressing : Obligations.CellAddressing := by
  intro columns row col row' col' hcolumns hrow _ hcol hcol'
  refine ⟨?even, cellOffset_succ_lt hcolumns hrow hcol, cellOffset_eq_iff hcolumns hcol hcol', ?last⟩
  case even => exact Nat.mul_mod_left _ 2
  case last => rcases hcolumns with rfl | rfl <;> rfl

/-! ## The colours of a cell and their exchange (R185, R186) -/

/-- The flag of an attribute is its top bit (R98). -/
theorem bit_7_iff (v : Byte) : bit v 7 = true ↔ 128 ≤ v.toNat := by
  rw [bit_7_eq, decide_eq_true_iff]

/-- A cell blinks when blink is enabled, the phase is 1 and the cell's flag is set. -/
theorem blinks_iff (l : Latches) (attr : Byte) :
    blinks l attr = true ↔ l.blinkEnable = true ∧ l.blink = 1 ∧ 128 ≤ attr.toNat := by
  simp only [blinks, attrFlag_eq, Bool.and_eq_true, beq_iff_eq, bit_7_iff, and_assoc]
  tauto

/-- The index of a text pixel, with the exchange in each of the two glyph bits' cases. -/
theorem textIndex_eq_ite (l : Latches) (attr : Byte) (shape : Bool) :
    textIndex l attr shape =
      if shape then (if blinks l attr then attrBg l.blinkEnable attr else attrFg attr)
      else (if blinks l attr then attrFg attr else attrBg l.blinkEnable attr) := by
  unfold textIndex
  cases blinks l attr <;> rfl

/-- A cell that does not blink shows foreground for a glyph bit 1. -/
theorem textIndex_of_not_blinks {l : Latches} {attr : Byte} (h : ¬blinks l attr = true) (shape : Bool) :
    textIndex l attr shape = if shape then attrFg attr else attrBg l.blinkEnable attr := by
  rw [textIndex_eq_ite, if_neg h, if_neg h]

/-- A cell that blinks shows background for a glyph bit 1. -/
theorem textIndex_of_blinks {l : Latches} {attr : Byte} (h : blinks l attr = true) (shape : Bool) :
    textIndex l attr shape = if shape then attrBg l.blinkEnable attr else attrFg attr := by
  rw [textIndex_eq_ite, if_pos h, if_pos h]

/-! ## The two phases (R186, R187) -/

/-- No cell blinks in phase 0. -/
theorem not_blinks_phase_zero (l : Latches) (attr : Byte) : ¬blinks { l with blink := 0 } attr = true := by
  simp [blinks_iff]

/-- In phase 1 the flagged cells blink, if blink is enabled. -/
theorem blinks_phase_one_iff (l : Latches) (attr : Byte) :
    blinks { l with blink := 1 } attr = true ↔ l.mc.getLsbD 5 = true ∧ 128 ≤ attr.toNat := by
  rw [blinks_iff]
  exact and_congr_right' (and_iff_right rfl)

/-- A cell that does not blink in phase 1 is the same in both phases. -/
theorem textIndex_phases_eq {l : Latches} {attr : Byte} (h : ¬(l.mc.getLsbD 5 = true ∧ 128 ≤ attr.toNat))
    (shape : Bool) :
    textIndex { l with blink := 1 } attr shape = textIndex { l with blink := 0 } attr shape := by
  rw [textIndex_of_not_blinks (mt (blinks_phase_one_iff l attr).1 h),
    textIndex_of_not_blinks (not_blinks_phase_zero l attr)]
  rfl

/-- With blink enabled the background is three bits wide (R98). -/
theorem attrBg_of_blinkEnable {l : Latches} (h : l.blinkEnable = true) (attr : Byte) :
    attrBg l.blinkEnable attr = attr.toNat / 16 % 8 := by
  rw [attrBg_eq, if_pos h]
  rfl

/-- Settles O42: the phase reaches an active pixel only through the exchange of the cell's colours, and the border not at
all. -/
theorem blinkExchangesTheCell : Obligations.BlinkExchangesTheCell := by
  intro l t vram columns row col
  refine ⟨rfl, fun hsteady => ?steady, fun hen hflag => ⟨?off, ?on⟩⟩
  case steady => exact congrArg (paletteAt (textPalette l t)) (textIndex_phases_eq hsteady _)
  case off =>
    refine congrArg (paletteAt (textPalette l t)) ?_
    rw [textIndex_of_not_blinks (not_blinks_phase_zero l _), attrFg_eq, field_3_0,
      attrBg_of_blinkEnable (l := { l with blink := 0 }) hen]
  case on =>
    refine congrArg (paletteAt (textPalette l t)) ?_
    rw [textIndex_of_blinks ((blinks_phase_one_iff l _).2 ⟨hen, hflag⟩), attrFg_eq, field_3_0,
      attrBg_of_blinkEnable (l := { l with blink := 1 }) hen]

/-! ## The frame of an undisturbed request (R180 to R186) -/

/-- The colour of index `k` in a text frame, by Mode Control bit 2 (R183). -/
def textColor (l : Latches) (t : Tables) (k : Nat) : RGB :=
  if l.mc.toNat / 4 % 2 = 1 then gray (paletteAt t.pal16 k) else paletteAt t.pal16 k

/-- It is the entry of the text palette. -/
theorem paletteAt_textPalette_eq_textColor (l : Latches) (t : Tables) {k : Nat} (h : k < 16) :
    paletteAt (textPalette l t) k = textColor l t k := by
  simp only [paletteAt_textPalette l t h, textColor, Latches.bw_iff]

/-- The background as arithmetic on the attribute, by Mode Control bit 5 (R98, R99). -/
theorem attrBg_eq_ite (l : Latches) (attr : Byte) :
    attrBg l.blinkEnable attr =
      if l.mc.toNat / 32 % 2 = 1 then attr.toNat / 16 % 8 else attr.toNat / 16 := by
  rw [attrBg_eq, field_7_4]
  simp only [Latches.blinkEnable_iff]
  rfl

/-- The condition of the exchange as arithmetic on Mode Control and the attribute (R186). -/
theorem blinks_iff_div (l : Latches) (attr : Byte) :
    blinks l attr = true ↔ l.mc.toNat / 32 % 2 = 1 ∧ l.blink = 1 ∧ attr.toNat / 128 = 1 := by
  have hattr := attr.isLt
  have hflag : 128 ≤ attr.toNat ↔ attr.toNat / 128 = 1 := by omega
  rw [blinks_iff, Latches.blinkEnable_iff, hflag]

/-- An active pixel in the spec's own arithmetic: its cell's two bytes, the glyph bit, the colour that bit chooses
(R181 to R186). -/
theorem textRoutine_active_eq (columns : Nat) (l : Latches) (t : Tables) (vram : Nat → Byte) (row col : Nat) :
    (textRoutine columns l t).active vram row col =
      let o := (row / 8 * columns + col / 8) * 2
      let code := (vram o).toNat
      let attr := (vram (o + 1)).toNat
      let fg := attr % 16
      let bg := if l.mc.toNat / 32 % 2 = 1 then attr / 16 % 8 else attr / 16
      let exchanged := l.mc.toNat / 32 % 2 = 1 ∧ l.blink = 1 ∧ attr / 128 = 1
      let shape := (t.fontAt (code * 8 + row % 8)).toNat / 2 ^ (7 - col % 8) % 2
      if shape = 1 then textColor l t (if exchanged then bg else fg)
      else textColor l t (if exchanged then fg else bg) := by
  rw [textRoutine_active, paletteAt_textPalette_eq_textColor l t (textIndex_lt l _ _), textIndex_eq_ite,
    apply_ite (textColor l t)]
  simp only [glyphBit_eq, bit_iff, blinks_iff_div, attrFg_eq, field_3_0, attrBg_eq_ite, cellOffset_eq]

/-- The border in the spec's own arithmetic (R184). -/
theorem textRoutine_borderCol_eq (columns : Nat) (l : Latches) (t : Tables) :
    (textRoutine columns l t).borderCol = textColor l t (l.cs.toNat % 16) := by
  rw [textRoutine_borderCol, paletteAt_textPalette_eq_textColor l t l.color_lt, Latches.color_eq]

/-- The operations of modes 0 and 1 draw 40 and 80 columns (R180, log 17). -/
theorem routineOf_text {i : Instr} {m : Byte} {columns : Nat}
    (h : (i, m, columns) ∈ [(Instr.renderT40, (0 : Byte), 40), (Instr.renderT80, 1, 80)]) (l : Latches) (t : Tables) :
    routineOf l t i = some (m, textRoutine columns l t) := by
  simp only [List.mem_cons, Prod.mk.injEq, List.not_mem_nil, or_false] at h
  rcases h with ⟨rfl, rfl, rfl⟩ | ⟨rfl, rfl, rfl⟩ <;> rfl

/-- Settles O26: the routine of R180 on the present video RAM, its pixels in the spec's own literals. -/
theorem textRoutinesDrawTheirFrame : Obligations.TextRoutinesDrawTheirFrame := by
  intro s q img i m columns hrow hq hu
  obtain ⟨t, after, hexec, hended, hdrawn⟩ := exec_draws_of_undisturbed (routineOf_text hrow _ _) hq hu
  refine ⟨t, after, hexec, hended, ?_⟩
  simp only [Routine.pixel_eq, textRoutine_active_eq, textRoutine_borderCol_eq, textColor] at hdrawn
  exact hdrawn

end Sys2Proof.Machine
end

section
/-! PROOFS. The set-mode command (R206): its zeroing of video RAM as the loop of byte writes, and the state it leaves. -/

namespace Sys2Proof.Machine

open Sys2Proof Sys2Proof.Safety

/-! ## Zeroing a window -/

/-- An empty window zeroes nothing. -/
theorem Memory.clearRange_zero (m : Memory) (base : Nat) : m.clearRange base 0 = m :=
  List.filter_eq_self.2 fun c _ => by simpa using Nat.lt_or_ge c.1 base

/-- A window longer by one byte is the shorter one and one more write of 0: both are canonical and read alike. -/
theorem Memory.clearRange_succ {m : Memory} (h : m.wf) (base size : Nat) :
    m.clearRange base (size + 1) = (m.clearRange base size).write (base + size) 0 := by
  have hclear := Memory.wf_clearRange h base size
  refine canonicalMemoriesReadingAlikeAreEqual _ _ (Memory.wf_clearRange h base (size + 1))
    (Memory.wf_write hclear (base + size) 0) fun a => ?_
  rw [Memory.read_write hclear, Memory.read_clearRange, Memory.read_clearRange]
  by_cases ha : a = base + size
  · rw [if_pos ha, if_pos (by omega)]
  · rw [if_neg ha]
    exact if_congr (by omega) rfl rfl

/-- Settles O11, by induction on the length of the window: the last write of the loop is `Memory.clearRange_succ`. -/
theorem zeroingIsTheWriteLoop : Obligations.ZeroingIsTheWriteLoop := by
  intro m base size hm
  induction size with
  | zero => exact m.clearRange_zero base
  | succ size ih =>
    rw [List.range_succ, List.foldl_append, ← ih, Memory.clearRange_succ hm]
    rfl

/-! ## The effects of the command -/

/-- The host transaction and the five operations known by their argument are one command (R93, R206). -/
theorem exec_of_setmodeArgument {i : Instr} {n : Byte} (hi : setmodeArgument i = some n)
    (hn : Config.supportedMode n = true) (s : State) : exec i s = .next ((s.setMode n).answer .none) := by
  cases i with
  | setmode0 | setmode1 | setmode4 | setmode5 | setmode6 => cases hi; rfl
  | setmode => cases hi; exact exec_setmode hn s
  | _ => cases hi

/-- Color Select reads 0 after a set-mode, Mode Control its default after 0 and 5, every other port as before. -/
theorem State.read_setMode_ports {s : State} (h : s.ports.wf) (n : Byte) (p : Nat) :
    (s.setMode n).ports.read p =
      if p = 0x3D9 then 0
      else if p = 0x3D8 ∧ (n = 0 ∨ n = 5) then s.tables.mcGrayDefault else s.ports.read p := by
  have hcs : ∀ p, (s.ports.write 0x3D9 0).read p = if p = 0x3D9 then 0 else s.ports.read p :=
    fun p => Memory.read_write h 0x3D9 p 0
  rw [State.setMode_ports]
  by_cases hn : n = 0 ∨ n = 5
  · simp only [hn, if_true, and_true]
    rw [Memory.read_write (Memory.wf_write h _ _), hcs]
    by_cases hp : p = 0x3D8
    · subst hp
      rfl
    · rw [if_neg hp, if_neg hp]
  · simp only [hn, if_false, and_false]
    exact hcs p

/-- Settles O17: the one command that all six operations are, its zeroed window and its ports. -/
theorem setmodeEffects : Obligations.SetmodeEffects := by
  intro s i n _ hports hi hn
  exact ⟨_, exec_of_setmodeArgument hi ((supportedMode_iff n).2 hn) s, rfl,
    s.mem.read_clearRange 0xB8000 16384, State.read_setMode_ports hports n, rfl⟩

end Sys2Proof.Machine
end

section
/-! PROOFS. The host's byte transactions and the blink phase (R200 to R203, R208, R69). -/

namespace Sys2Proof.Machine

open Sys2Proof

/-! ## The four byte transactions, with the sizes of their spaces at their values (R6) -/

theorem exec_poke (s : State) (a : Nat) (v : Byte) :
    exec (.poke a v) s =
      if a < 0x100000 then .next ((s.pokeByte a v).answer .none) else .refused .addressOutOfRange := rfl

theorem exec_peek (s : State) (a : Nat) :
    exec (.peek a) s =
      if a < 0x100000 then .next (s.answer (.byte (s.mem.read a))) else .refused .addressOutOfRange := rfl

theorem exec_portOut (s : State) (p : Nat) (v : Byte) :
    exec (.portOut p v) s =
      if p < 0x10000 then .next ((s.outByte p v).answer .none) else .refused .portOutOfRange := rfl

theorem exec_portIn (s : State) (p : Nat) :
    exec (.portIn p) s =
      if p < 0x10000 then .next (s.answer (.byte (s.ports.read p))) else .refused .portOutOfRange := rfl

/-! ## Stores, loads and the blink phase -/

/-- Settles O13: on each side of the bound the transaction is one branch, and a write changes its own address only. -/
theorem pokeAndOutStoreTheirByte : Obligations.PokeAndOutStoreTheirByte := by
  refine fun s a v => ⟨fun hmem ha => ?poke, fun ha => ?noAddress, fun hports ha => ?portOut, fun ha => ?noPort⟩
  case poke => exact ⟨_, (exec_poke s a v).trans (if_pos ha), fun b => Memory.read_write hmem a b v, rfl⟩
  case noAddress => exact (exec_poke s a v).trans (if_neg (Nat.not_lt.2 ha))
  case portOut => exact ⟨_, (exec_portOut s a v).trans (if_pos ha), fun b => Memory.read_write hports a b v, rfl⟩
  case noPort => exact (exec_portOut s a v).trans (if_neg (Nat.not_lt.2 ha))

/-- Settles O14: the same two branches of a load, which writes the reply only. -/
theorem peekAndInReturnTheByte : Obligations.PeekAndInReturnTheByte := fun s a =>
  ⟨fun ha => (exec_peek s a).trans (if_pos ha), fun ha => (exec_peek s a).trans (if_neg (Nat.not_lt.2 ha)),
    fun ha => (exec_portIn s a).trans (if_pos ha), fun ha => (exec_portIn s a).trans (if_neg (Nat.not_lt.2 ha))⟩

/-- Settles O16: the one branch of BLINK. -/
theorem blinkSetsThePhase : Obligations.BlinkSetsThePhase := fun _ _ => rfl

end Sys2Proof.Machine
end

section
/-! PROOFS. The host's access to the images it owns and to `KEYLATCH` (R29, R76, R209, R230; log 22), and what it finds of an
image (R258; log 28). -/

namespace Sys2Proof.Machine

open Sys2Proof

/-! ## The pixels the host finds -/

/-- What the host finds of an image it owns: a pixel when the image is free and the position lies in it. -/
theorem State.readPixel_of_owned {s : State} {i : Nat} {img : Image} (h : s.images[i]? = some img) (x y : Nat) :
    s.readPixel i x y =
      if s.inUse i = false ∧ x < img.width ∧ y < img.height then some (img.pixel x y) else none := by
  simp only [State.readPixel, h]

/-- Settles O55: the first clause meets the three conditions of a read, each of the others fails one. -/
theorem hostReadsFinishedImagesOnly : Obligations.HostReadsFinishedImagesOnly := by
  intro s i x y img himg
  rw [State.readPixel_of_owned himg]
  refine ⟨fun hfree hx hy => ?free, ?busy, fun hout => ?outside⟩
  case free => exact if_pos ⟨State.inUse_eq_false.2 hfree, hx, hy⟩
  case busy =>
    rintro q hq rfl
    exact if_neg fun ⟨hfree, _⟩ => State.inUse_eq_false.1 hfree q hq rfl
  case outside => exact if_neg fun ⟨_, hx, hy⟩ => by omega

/-! ## The host's moves on an image it may access -/

section

variable {s : State} {i : Nat} {img : Image} (himg : s.ownImage i = .ok img)
include himg

theorem hostMove_imageWrite (k : Nat) (v : Byte) :
    hostMove (.imageWrite i k v) s =
      if k < img.capacity then .next (s.putImage i (img.withByte k v)) else .refused .imageOffsetOutOfRange := by
  simp only [hostMove, hostImageWrite, himg]

theorem hostMove_imageRead (k : Nat) :
    hostMove (.imageRead i k) s =
      if k < img.capacity then .next (s.answer (.byte (img.byte k))) else .refused .imageOffsetOutOfRange := by
  simp only [hostMove, hostImageRead, himg]

theorem hostMove_fieldsWrite (w h a : Nat) :
    hostMove (.fieldsWrite i w h a) s = .next (s.putImage i { img.withSize w h with aspectRatio := a }) := by
  simp only [hostMove, hostFieldsWrite, himg]

theorem hostMove_fieldsRead :
    hostMove (.fieldsRead i) s = .next (s.answer (.fields img.width img.height img.aspectRatio)) := by
  simp only [hostMove, hostFieldsRead, himg]

end

/-! ## The refusal of an image in use (R76, U13) -/

/-- The host may not access an image that a request in progress is on. -/
theorem State.ownImage_inUse {s : State} {i : Nat} {img : Image} (himg : s.images[i]? = some img)
    (hbusy : s.inUse i = true) : s.ownImage i = .error .imageInUse := by
  simp only [State.ownImage, himg, hbusy, if_true]

/-- An access to an image that the host may not access is refused for that reason. -/
theorem hostMove_of_ownImage_error {s : State} {i : Nat} {why : Refusal} (h : s.ownImage i = .error why)
    (k width height aspect : Nat) (v : Byte) :
    hostMove (.imageWrite i k v) s = .refused why ∧ hostMove (.imageRead i k) s = .refused why ∧
      hostMove (.fieldsWrite i width height aspect) s = .refused why ∧
      hostMove (.fieldsRead i) s = .refused why := by
  simp only [hostMove, hostImageWrite, hostImageRead, hostFieldsWrite, hostFieldsRead, h, and_self]

/-- Settles O56: the moves on a free image answer on each side of its capacity, those on an image in use are refused. -/
theorem hostOwnsItsImagesAndKeyLatch : Obligations.HostOwnsItsImagesAndKeyLatch := by
  refine ⟨fun s m rest => step_of_no_request, fun s code => ⟨rfl, rfl⟩,
    fun s i k w h a v img himg => ⟨fun hfree => ?free, ?busy⟩⟩
  case free =>
    have hown : s.ownImage i = .ok img := State.ownImage_ok.2 ⟨himg, State.inUse_eq_false.2 hfree⟩
    rw [hostMove_imageWrite hown, hostMove_imageRead hown, hostMove_fieldsWrite hown, hostMove_fieldsRead hown]
    refine ⟨fun hk => ?inside, fun hk => ?past, ?fields, rfl⟩
    case inside =>
      rw [if_pos hk, if_pos hk]
      exact ⟨⟨img.withByte k v, rfl, fun j => img.withByte_byte k j v, rfl, rfl, rfl, rfl⟩, rfl⟩
    case past => exact ⟨if_neg (Nat.not_lt.2 hk), if_neg (Nat.not_lt.2 hk)⟩
    case fields => exact ⟨_, rfl, rfl, rfl, rfl, fun _ => rfl, rfl⟩
  case busy =>
    rintro q hq rfl
    exact hostMove_of_ownImage_error (State.ownImage_inUse himg (State.inUse_of_mem hq)) k w h a v

end Sys2Proof.Machine
end

section
/-! PROOFS. Nothing to do: the idle block and the reset state (R225, R211, R250). -/

namespace Sys2Proof.Machine

open Sys2Proof

theorem hostTurn_of_empty_queue {s : State} (h : s.queue = []) : hostTurn s = .next s := by
  simp only [hostTurn, h]

/-- Settles O10: the turn is the host's, and its queue is empty. -/
theorem idleStepChangesNothing : Obligations.IdleStepChangesNothing := by
  intro s hnone hqueue
  rw [← hostTurn_of_empty_queue hqueue]
  simp only [step, turn, hnone]

/-- Settles O60: the byte spaces are empty lists, and with no request and no operation left the block is idle. -/
theorem resetZeroesTheBlock : Obligations.ResetZeroesTheBlock :=
  ⟨Memory.read_nil, Memory.read_nil, rfl, rfl, rfl, rfl, idleStepChangesNothing State.reset rfl rfl⟩

end Sys2Proof.Machine
end

section
/-! PROOFS. RENDER with no image, and a routine entered other than through the dispatcher (R222, R223, R226). -/

namespace Sys2Proof.Machine

open Sys2Proof Sys2Proof.Safety

/-- Settles O19: no image is RENDER's first case, before `MODE` is read. -/
theorem renderNoneIsNoTarget : Obligations.RenderNoneIsNoTarget := fun _ => rfl

/-- What keeps a mode from being dispatched refuses the operation with that mode's routine. -/
theorem exec_of_dispatched_error {s : State} {l : Latches} {t : Tables} {i : Instr} {m : Byte} {r : Routine}
    {why : Refusal} (hr : routineOf l t i = some (m, r)) (hd : s.dispatched m = .error why) :
    exec i s = .refused why := by
  cases i with
  | renderT40 | renderT80 | renderG320 | renderG320M5 | renderG640 =>
    cases hr
    simp only [exec, execRenderT40, execRenderT80, execRenderG320, execRenderG320M5, execRenderG640, State.drawFrame,
      hd]
  | _ => cases hr

/-- Settles O21: with no first request, or another mode latched in it, nothing is dispatched. -/
theorem routinesNeedTheDispatcher : Obligations.RoutinesNeedTheDispatcher := by
  intro s l i m r hr hother
  refine exec_of_dispatched_error hr (State.dispatched_refused fun q hq => ?_)
  rcases hother with hnone | ⟨q', hq', hne⟩
  · rw [hnone] at hq
    cases hq
  · obtain rfl : q' = q := Option.some.inj (hq'.symm.trans hq)
    exact hne

end Sys2Proof.Machine
end

section
/-! PROOFS. What a render operation may write (R120, R230, R233). -/

namespace Sys2Proof.Machine

open Sys2Proof Sys2Proof.Safety

/-- The render operations: those the dispatcher selects, and RENDER itself. -/
def IsRenderOperation (i : Instr) : Prop := (∃ m, encode i = .mode8 m) ∨ ∃ img, i = .render img

/-- The set-mode command is the host's. -/
theorem not_isRenderOperation_of_setmodeArgument {i : Instr} {n : Byte} (h : setmodeArgument i = some n) :
    ¬IsRenderOperation i := by
  rintro (⟨m, hm⟩ | ⟨img, rfl⟩)
  · exact encode_ne_mode8_of_setmodeArgument h m hm
  · cases h

/-- Nothing but the images, the requests, the reply and the counter of free values differs between the states. -/
def OnlyRequestsDiffer (s t : State) : Prop :=
  t = { s with images := t.images, requests := t.requests, reply := t.reply, draws := t.draws }

/-- A render operation starts a request at the end of the list, ends the first one, or only answers; the image that may
change is that of the request it ends. -/
theorem Effect.of_renderOperation {s t : State} {i : Instr} (h : Effect s i t) (hi : IsRenderOperation i) :
    OnlyRequestsDiffer s t ∧
      ((t.images = s.images ∧ (t.requests = s.requests ∨ ∃ q, t.requests = s.requests ++ [q])) ∨
       (t.requests = s.requests.tail ∧
        ∃ q after, s.requests.head? = some q ∧ t.images = s.images.set q.img after)) := by
  cases h with
  | poke | peek | portOut | portIn | blink => rcases hi with ⟨m, hm⟩ | ⟨img, himg⟩ <;> contradiction
  | setmode hn => exact absurd hi (not_isRenderOperation_of_setmodeArgument hn)
  | noTarget => exact ⟨rfl, .inl ⟨rfl, .inl rfl⟩⟩
  | start => exact ⟨rfl, .inl ⟨rfl, .inr ⟨_, rfl⟩⟩⟩
  | unsupported _ hd | frame hd _ =>
    obtain ⟨hhead, -⟩ := State.dispatched_ok.1 hd
    exact ⟨rfl, .inr ⟨rfl, _, _, hhead, rfl⟩⟩

/-- Settles O51, by what the operation does to the requests. -/
theorem renderOperationsWriteOnlyTheirRequest : Obligations.RenderOperationsWriteOnlyTheirRequest := by
  intro i s t hi h
  have hrender : IsRenderOperation i := by
    rcases hi with ⟨l, hl⟩ | ⟨m, rfl⟩ | himg
    · obtain ⟨⟨m, r⟩, hr⟩ := Option.isSome_iff_exists.1 hl
      exact .inl ⟨m, encode_of_routineOf hr⟩
    · exact .inl ⟨m, rfl⟩
    · exact .inr himg
  obtain ⟨honly, ⟨himages, hrequests⟩ | ⟨htail, q, after, hhead, himages⟩⟩ :=
    (exec_effect h).of_renderOperation hrender
  · exact ⟨honly, fun j _ => by rw [himages], hrequests.imp_right .inr⟩
  · exact ⟨honly, fun j hj => by rw [himages, List.getElem?_set_ne (hj q hhead)], .inr (.inl htail)⟩

end Sys2Proof.Machine
end

section
/-! PROOFS. The latches of a request in progress (R30, R138, R255). -/

namespace Sys2Proof.Machine

open Sys2Proof

/-- `q'` has the latches of a request of `s` on its image, or it starts on a free image with the registers of `s`. -/
def LatchedIn (s : State) (q' : Request) : Prop :=
  (∃ q ∈ s.requests, q'.img = q.img ∧ q'.latches = q.latches) ∨ (s.inUse q'.img = false ∧ q'.latches = s.sampled)

theorem LatchedIn.of_mem {s : State} {q : Request} (h : q ∈ s.requests) : LatchedIn s q := .inl ⟨q, h, rfl, rfl⟩

/-- A request that starts samples the registers (R30, R120). -/
theorem LatchedIn.of_newRequest {s : State} {q : Request} (hfree : s.inUse q.img = false)
    (hnew : q = s.newRequest q.img) : LatchedIn s q :=
  .inr ⟨hfree, congrArg Request.latches hnew⟩

/-- Noting what `memory` holds leaves the latches alone. -/
theorem LatchedIn.note {s : State} {q : Request} (h : LatchedIn s q) (m : Memory) : LatchedIn s (q.note m) := by
  simpa only [LatchedIn, Request.note_img, Request.note_latches] using h

/-- A move of the host reaches no latch of a request in progress, whatever it writes. -/
theorem HostEffect.latchedIn {s t : State} {m : HostMove} (h : HostEffect s m t) {q' : Request}
    (hq' : q' ∈ t.requests) : LatchedIn s q' := by
  rcases h.request_origin hq' with hold | ⟨hfree, hnew, -⟩
  · exact .of_mem hold
  · exact .of_newRequest hfree hnew

/-- The operation the dispatcher selects only ends the first request. -/
theorem mem_requests_of_dispatched {s t : State} {m : Byte} {i : Instr} (hi : decodeMode8 m = .ok i)
    (h : exec i s = .next t) {q' : Request} (hq' : q' ∈ t.requests) : q' ∈ s.requests := by
  obtain ⟨-, htail⟩ := (exec_effect h).mem_requests_of_mode8 (encode_eq_of_decodeMode8 hi)
  exact List.mem_of_mem_tail (htail ▸ hq')

/-- Every case of a step but a late sample leaves the latches of the requests in progress alone. -/
theorem Move.latchedIn {s t : State} (h : Move s t) (hsample : ∀ i l rest, s.schedule ≠ .sample i l :: rest)
    {q' : Request} (hq' : q' ∈ t.requests) : LatchedIn s q' := by
  cases h with
  | idle => exact .of_mem hq'
  | host _ _ he => exact he.latchedIn hq'
  | dispatch _ _ hi he => exact .of_mem (mem_requests_of_dispatched hi he hq')
  | dispatchNamed _ _ hi he => exact .of_mem (State.mem_bringForward.1 (mem_requests_of_dispatched hi he hq'))
  | sample _ hsched => exact absurd hsched (hsample _ _ _)
  | idleDuring =>
    obtain ⟨q, hq, rfl⟩ := List.mem_map.1 hq'
    exact (LatchedIn.of_mem hq).note _
  | during _ _ _ he =>
    obtain ⟨q, hq, rfl⟩ := List.mem_map.1 hq'
    exact (he.latchedIn hq).note _

/-- Settles O49, by the cases of a step. -/
theorem latchesHoldDuringRequest : Obligations.LatchesHoldDuringRequest :=
  fun _ _ h hsample _ hq' => (step_move h).latchedIn hsample hq'

end Sys2Proof.Machine
end

section
/-! PROOFS. Two requests at once, on different images (R210, R233; logs 3 to 5). -/

namespace Sys2Proof.Machine

open Sys2Proof Sys2Proof.Safety

/-- With no other request in progress, the one that RENDER opens stands alone. -/
theorem State.openRequest_of_no_request {s : State} (hnone : s.requests = []) (i : Nat) :
    s.openRequest i = { s with requests := [s.newRequest i], reply := .none } := by
  simp only [State.openRequest, hnone, List.nil_append]

/-- RENDER of a free image of sufficient capacity starts its request (R120, R35). -/
theorem exec_render_of_free {s : State} {i : Nat} {img : Image} (hfree : s.inUse i = false)
    (htarget : HasTarget s i img) : exec (.render (some i)) s = .next (s.openRequest i) := by
  obtain ⟨himg, hcap⟩ := htarget
  rw [exec_render_of_owned himg, hfree, if_neg Bool.false_ne_true]
  exact if_pos hcap

/-- RENDER of a free image in the host's turn during other requests: it opens a request beside them (R210, R233), and since
it leaves `memory` alone, none of them notes anything new (R73(b)). -/
theorem step_render_during {s : State} {j : Nat} {img : Image} {turns : List Turn} {rest : List HostMove}
    (hrequests : s.requests ≠ []) (hsched : s.schedule = .host :: turns)
    (hqueue : s.queue = .op (encode (.render (some j))) :: rest) (hfree : s.inUse j = false)
    (htarget : HasTarget s j img) (hseen : ∀ q ∈ s.requests, q.seen.head? = some s.mem) :
    step s = .next (State.openRequest { s with schedule := turns, queue := rest } j) := by
  have hexec := exec_render_of_free (s := { s with schedule := turns, queue := rest }) hfree htarget
  have hnote : (State.openRequest { s with schedule := turns, queue := rest } j).noteSeen =
      State.openRequest { s with schedule := turns, queue := rest } j :=
    noteSeen_eq_self (List.forall_mem_append.2 ⟨hseen, List.forall_mem_singleton.2 rfl⟩)
  rw [step_of_host_turn hrequests hsched hqueue ((hostMove_op rfl rfl _).trans hexec), hnote]

/-- Bringing the second of two requests forward exchanges them. -/
theorem State.bringForward_second {s : State} {p q : Request} (hrequests : s.requests = [p, q]) (hne : p.img ≠ q.img) :
    s.bringForward q.img = { s with requests := [q, p] } := by
  simp [State.bringForward, hrequests, hne]

section

variable {s : State} {q : Request} {img : Image} {op : Instr} {r : Routine}
  (hop : decodeMode8 q.latches.mode = .ok op) (hr : routineOf q.latches s.tables op = some (q.latches.mode, r))
  (hraster : q.raster = ⟨0, 0⟩) (htarget : HasTarget s q.img img) (hu : Undisturbed s q)
include hop hr hraster htarget hu

/-- The renderer's turn on an undisturbed first request: its image holds the frame of the present video RAM, and nothing
else of the block, of the other requests or of the other images changes but the counter of free values (R120, R133). -/
theorem rendererTurn_draws {others : List Request} (hrequests : s.requests = q :: others) :
    ∃ after draws, rendererTurn s = .next { s with
        images := s.images.set q.img after, reply := .result .ok, requests := others, draws := draws } ∧
      FrameDrawn img after r.width r.height fun x y => r.pixel s.mem.vram x y := by
  have hhead : s.requests.head? = some q := by rw [hrequests, List.head?_cons]
  have hothers : s.requests.tail = others := by rw [hrequests, List.tail_cons]
  obtain ⟨t, after, hexec, hended, hdrawn⟩ := exec_draws_of_undisturbed hr ⟨hhead, hraster, htarget, rfl⟩ hu
  refine ⟨after, t.draws, ?_, hdrawn⟩
  rw [rendererTurn_of_head hhead hop, hexec, ← hothers, ← state_eq_of_requestEnded hended]

/-- The renderer's turn on the second of two requests, which the schedule names (R233; log 5). -/
theorem step_draws_second {p : Request} {turns : List Turn} (hrequests : s.requests = [p, q]) (hne : p.img ≠ q.img)
    (hsched : s.schedule = .renderer q.img :: turns) :
    ∃ after draws, step s = .next { s with
        images := s.images.set q.img after, reply := .result .ok, requests := [p], schedule := turns, draws := draws } ∧
      FrameDrawn img after r.width r.height fun x y => r.pixel s.mem.vram x y := by
  have hforward : State.bringForward { s with schedule := turns } q.img =
      { s with requests := [q, p], schedule := turns } := State.bringForward_second hrequests hne
  obtain ⟨after, draws, hturn, hdrawn⟩ :=
    rendererTurn_draws (s := { s with requests := [q, p], schedule := turns }) hop hr hraster htarget hu rfl
  refine ⟨after, draws, ?_, hdrawn⟩
  rw [step_of_renderer_turn (by simp [hrequests]) hsched, hforward, hturn]

end

/-- Settles O29: the request on `j` opens beside the one on `i`, is brought forward and drawn, and leaves the image of `i` and
the memory its request has seen for the last step. -/
theorem requestsOnDifferentImagesDoNotInterfere : Obligations.RequestsOnDifferentImagesDoNotInterfere := by
  intro s i j imgI imgJ rest hij hnone hsched hqueue hI hJ hm
  obtain ⟨op, r, hop, hr⟩ := exists_routineOf_decodeMode8 hm s.sampled s.tables
  have hopenI := step_render hnone hqueue hI
  rw [State.openRequest_of_no_request (by exact hnone)] at hopenI
  have hopenJ := step_render_during
    (s := { s with
      requests := [s.newRequest i], reply := .none, queue := .op (encode (.render (some j))) :: rest })
    (List.cons_ne_nil _ _) hsched rfl (State.inUse_eq_false.2 (List.forall_mem_singleton.2 hij)) hJ
    (List.forall_mem_singleton.2 rfl)
  obtain ⟨afterJ, drawsJ, hdrawJ, hframeJ⟩ := step_draws_second
    (s := { s with
      requests := [s.newRequest i, s.newRequest j], reply := .none, queue := rest, schedule := [.renderer j] })
    (q := s.newRequest j) hop hr rfl hJ rfl rfl hij rfl
  have hkept : HasTarget { s with images := s.images.set j afterJ } i imgI :=
    hI.imp_left (List.getElem?_set_ne hij.symm).trans
  obtain ⟨afterI, drawsI, hturnI, hframeI⟩ := rendererTurn_draws
    (s := { s with
      images := s.images.set j afterJ, requests := [s.newRequest i], reply := .result .ok, queue := rest, schedule := []
      draws := drawsJ })
    (q := s.newRequest i) hop hr rfl hkept rfl rfl
  have hdrawI := (step_of_empty_schedule (List.cons_ne_nil _ _) rfl).trans hturnI
  refine ⟨_, _, _, _, afterI, afterJ, op, r, hopenI, hopenJ, hdrawJ, hdrawI, rfl, rfl, rfl, rfl, rfl, ?_, hr,
    hframeI, hframeJ⟩
  rw [hnone]
  rfl

end Sys2Proof.Machine
end

section
/-! PROOFS. Set-mode and stale video RAM (R206, R256): what a change of `MODE` leaves, and the blank frame after it (R153(a),
R173(a)). -/

namespace Sys2Proof.Machine

open Sys2Proof Sys2Proof.Safety

/-! ## A change of `MODE` -/

/-- From the memory and ports of `s`, `t` has what a set-mode leaves of them (R206). -/
def SetModeFrom (s t : State) : Prop :=
  ∃ n, t.mem = (s.setMode n).mem ∧ t.ports = (s.setMode n).ports

/-- Only the set-mode command writes `MODE`. -/
theorem Effect.mode_eq_or_setModeFrom {s t : State} {i : Instr} (h : Effect s i t) :
    t.mode = s.mode ∨ SetModeFrom s t := by
  cases h with
  | setmode => exact .inr ⟨_, rfl, rfl⟩
  | _ => exact .inl rfl

theorem HostEffect.mode_eq_or_setModeFrom {s t : State} {m : HostMove} (h : HostEffect s m t) :
    t.mode = s.mode ∨ SetModeFrom s t := by
  cases h with
  | op _ _ he => exact (exec_effect he).mode_eq_or_setModeFrom
  | _ => exact .inl rfl

/-- Neither the queue, the schedule nor the order of the requests has a part in what a set-mode leaves. -/
theorem Move.mode_eq_or_setModeFrom {s t : State} (h : Move s t) : t.mode = s.mode ∨ SetModeFrom s t := by
  cases h with
  | idle | sample | idleDuring => exact .inl rfl
  | host _ _ he | during _ _ _ he => exact he.mode_eq_or_setModeFrom
  | dispatch _ _ _ he | dispatchNamed _ _ _ he => exact (exec_effect he).mode_eq_or_setModeFrom

/-- All of video RAM reads 0 after a set-mode (R206). -/
theorem State.vram_setMode (s : State) (n : Byte) {o : Nat} (ho : o < 16384) : (s.setMode n).mem.vram o = 0 := by
  rw [State.setMode_mem, Memory.vram, Memory.read_clearRange, vramSize_eq]
  exact if_pos ⟨Nat.le_add_right _ _, Nat.add_lt_add_left ho _⟩

/-- Color Select reads 0 after a set-mode (R206). -/
theorem State.cs_setMode {s : State} (h : s.ports.wf) (n : Byte) : (s.setMode n).cs = 0 :=
  State.read_setMode_ports h n 0x3D9

/-- Settles O53: a step that changes `MODE` is a set-mode. -/
theorem modeChangeZeroesVideoRam : Obligations.ModeChangeZeroesVideoRam := by
  intro s t hports h hne
  obtain hsame | ⟨n, hmem, hports'⟩ := (step_move h).mode_eq_or_setModeFrom
  · exact absurd hsame hne
  · rw [hmem, hports']
    exact ⟨fun o ho => s.vram_setMode n ho, State.cs_setMode hports n⟩

/-! ## Frames of one colour -/

/-- The scanline bytes lie in video RAM (R63, R137). -/
theorem ScanlineOffset.lt_vramSize {o : Nat} (h : ScanlineOffset o) : o < 16384 := by
  unfold ScanlineOffset at h
  omega


/-- The dispatcher selects an operation with a routine by that routine's mode (R92, R121). -/
theorem decodeMode8_of_routineOf {l : Latches} {t : Tables} {i : Instr} {m : Byte} {r : Routine}
    (h : routineOf l t i = some (m, r)) : decodeMode8 m = .ok i := by
  cases i with
  | renderT40 | renderT80 | renderG320 | renderG320M5 | renderG640 => cases h; rfl
  | _ => cases h

/-- A mode selects one operation, so one routine (R92). -/
theorem routineOf_unique {l : Latches} {t : Tables} {i i' : Instr} {m : Byte} {r r' : Routine}
    (h : routineOf l t i = some (m, r)) (h' : routineOf l t i' = some (m, r')) : r = r' := by
  obtain rfl : i = i' := Except.ok.inj ((decodeMode8_of_routineOf h).symm.trans (decodeMode8_of_routineOf h'))
  rw [h] at h'
  cases h'
  rfl

/-- A frame is of one colour when its border and its active pixels are. -/
theorem Routine.pixel_eq_of_uniform {r : Routine} {vram : Nat → Byte} {c : RGB} (hborder : r.borderCol = c)
    (hactive : ∀ row col, r.active vram row col = c) (x y : Nat) : r.pixel vram x y = c := by
  rw [Routine.pixel_eq]
  split
  · exact hactive _ _
  · exact hborder

/-- Every pixel of a zero byte has the value 0 (R94). -/
theorem pix2_zero (col : Nat) : pix2 0 col = 0 := by
  simp [pix2_eq]

/-- Both colours of a cell whose second byte is 0 are 0, whichever the glyph bit and the blink phase choose (R98, R99). -/
theorem textIndex_zero (l : Latches) (shape : Bool) : textIndex l 0 shape = 0 := by
  rcases textIndex_eq_attrFg_or_attrBg l 0 shape with hfg | hbg
  · exact hfg
  · rw [hbg]
    cases l.blinkEnable <;> rfl

section

variable {l : Latches} {vram : Nat → Byte} (hcs : l.cs = 0) (t : Tables) (x y : Nat)
include hcs

theorem Latches.color_of_cs_zero : l.color = 0 := by
  rw [Latches.color_eq, hcs]
  rfl

/-- With zero scanline bytes and Color Select 0 a 320-column frame is `PAL16[0]` everywhere (R153(a)). -/
theorem g320_pixel_blank (hvram : ∀ o, ScanlineOffset o → vram o = 0) :
    (g320 l t).pixel vram x y = paletteAt t.pal16 0 := by
  rw [g320_pixel_congr l t x y (w := fun _ => 0) hvram]
  refine Routine.pixel_eq_of_uniform ?_ (fun row col => ?_) x y
  · rw [g320_borderCol, Latches.color_of_cs_zero hcs]
  · rw [g320_active, pix2_zero, colIdxG320_zero, Latches.color_of_cs_zero hcs]

/-- So is a 640-column frame (R173(a)). -/
theorem g640_pixel_blank (hvram : ∀ o, ScanlineOffset o → vram o = 0) :
    (g640 l t).pixel vram x y = paletteAt t.pal16 0 := by
  rw [g640_pixel_congr l t x y (w := fun _ => 0) hvram]
  refine Routine.pixel_eq_of_uniform ?_ (fun row col => ?_) x y
  · rw [g640_borderCol, Latches.color_of_cs_zero hcs]
  · rw [g640_active, Latches.color_of_cs_zero hcs, ite_self]

/-- With zero video RAM, Color Select 0 and Mode Control 0 a text frame is `PAL16[0]` everywhere, whatever the glyph table
holds (R188, R251). -/
theorem textRoutine_pixel_blank (hmc : l.mc = 0) (hvram : ∀ o, vram o = 0) (columns : Nat) :
    (textRoutine columns l t).pixel vram x y = paletteAt t.pal16 0 := by
  have hpalette : textPalette l t = t.pal16 := by
    rw [textPalette, Latches.bw, hmc]
    rfl
  refine Routine.pixel_eq_of_uniform ?_ (fun row col => ?_) x y
  · rw [textRoutine_borderCol, hpalette, Latches.color_of_cs_zero hcs]
  · rw [textRoutine_active, hpalette, hvram, textIndex_zero]

/-- The frames of modes 4 and 6 with zero scanline bytes and Color Select 0: their size and their one colour. -/
theorem graphics_frame_blank (hvram : ∀ o, ScanlineOffset o → vram o = 0) {n : Byte} (hn : n = 4 ∨ n = 6) {op : Instr}
    {r : Routine} (hr : routineOf l t op = some (n, r)) :
    r.width = (if n = 4 then 352 else 672) ∧ r.height = 232 ∧ ∀ x y, r.pixel vram x y = paletteAt t.pal16 0 := by
  rcases hn with rfl | rfl
  · obtain rfl := routineOf_unique hr (show routineOf l t .renderG320 = some (4, g320 l t) from rfl)
    exact ⟨rfl, rfl, fun x y => g320_pixel_blank hcs t x y hvram⟩
  · obtain rfl := routineOf_unique hr (show routineOf l t .renderG640 = some (6, g640 l t) from rfl)
    exact ⟨rfl, rfl, fun x y => g640_pixel_blank hcs t x y hvram⟩

end

/-- SETMODE at the head of the queue runs the command (R206). -/
theorem step_setmode {s : State} {n : Byte} {rest : List HostMove} (hnone : s.requests = [])
    (hqueue : s.queue = .op (encode (.setmode n)) :: rest) (hn : Config.supportedMode n = true) :
    step s = .next ((State.setMode { s with queue := rest } n).answer .none) :=
  (step_runs_word hnone hqueue rfl (decode_encode_setmode n)).trans (exec_setmode hn _)

/-- Settles O31: the request samples the zero Color Select and reads the zero video RAM that SETMODE has left. -/
theorem setmodeThenRenderIsBlank : Obligations.SetmodeThenRenderIsBlank := by
  intro s n i img rest hn hports hnone hsched hqueue htarget
  have hsupported : Config.supportedMode n = true := by rcases hn with rfl | rfl <;> rfl
  have hset := step_setmode hnone hqueue hsupported
  have hopen := step_render
    (s := (State.setMode { s with queue := .op (encode (.render (some i))) :: rest } n).answer .none) hnone rfl htarget
  obtain ⟨t, after, op, r, hdraw, ht, hr, hwidth, hheight, hpixel, -⟩ := step_openRequest_of_supported
    (s := { (s.setMode n).answer .none with queue := rest }) hnone hsched htarget hsupported
  obtain ⟨hw, hh, hblank⟩ := graphics_frame_blank (State.cs_setMode hports n) s.tables
    (fun o ho => s.vram_setMode n ho.lt_vramSize) hn hr
  refine ⟨_, _, t, after, hset, hopen, hdraw, congrArg State.images ht, congrArg State.reply ht,
    congrArg State.mode ht, congrArg State.queue ht, hwidth.trans hw, hheight.trans hh, fun x y hx hy => ?_⟩
  rw [hpixel x y (hwidth ▸ hx) (hh ▸ hy)]
  exact hblank x y

/-- Settles O30: `MODE` 0 selects the 40-column routine, whose cells are all zero. -/
theorem firstFrameIsBlack : Obligations.FirstFrameIsBlack := by
  intro s i img rest hmem hports hmode _ hpal hnone hsched hqueue htarget
  have hsupported : Config.supportedMode s.mode = true := by rw [hmode]; rfl
  have hcs : s.sampled.cs = 0 := by rw [State.sampled_cs, State.cs, hports, Memory.read_nil]
  have hmc : s.sampled.mc = 0 := by rw [State.sampled_mc, State.mc, hports, Memory.read_nil]
  have hvram (o : Nat) : s.mem.vram o = 0 := by rw [Memory.vram, hmem, Memory.read_nil]
  obtain ⟨t, after, op, r, hdraw, ht, hr, hwidth, hheight, hpixel, -⟩ := step_openRequest_of_supported
    (s := { s with queue := rest }) hnone hsched htarget hsupported
  obtain rfl : r = textRoutine 40 s.sampled s.tables := routineOf_unique hr (i' := .renderT40) (by rw [hmode]; rfl)
  refine ⟨_, t, after, step_render hnone hqueue htarget, hdraw, congrArg State.images ht, congrArg State.reply ht,
    hwidth, hheight, fun x y hx hy => ?_⟩
  rw [hpixel x y hx hy]
  exact (textRoutine_pixel_blank hcs s.tables x y hmc hvram 40).trans hpal

end Sys2Proof.Machine
end
